-- ==== Sys2Proof/Word.lean ====
section
/-! DEFINITION. The word types of the SD192 (R8 to R10) and their plainest arithmetic. -/

namespace Sys2Proof

/-- A 64-bit word: transport bus, general register, bobbin word (R97, R242). -/
abbrev Word := BitVec 64

/-- A register-page word (R47). -/
abbrev W32 := BitVec 32

/-- One byte of a memory range (R37). -/
abbrev Byte := BitVec 8

/-- A 40-bit system address or bundle address (R37, R97). -/
abbrev Addr := BitVec 40

/-- A logical core pair CP0 to CP11 (R40). -/
abbrev Pair := Fin 12

/-- A hue H0 to H15 (R56). -/
abbrev Hue := Fin 16

/-- A Spindle channel (R213). -/
abbrev Chan := Fin 128

/-- An output or sense line (R7). -/
abbrev Line := Fin 192

/-- Addition that stays at the largest 32-bit value (the counters of R51). -/
def satInc32 (n : Nat) : Nat := min (n + 1) 0xFFFFFFFF

/-- The signed reading of the low `w` bits of `n`. -/
def toSigned (w n : Nat) : Int :=
  let m := n % 2 ^ w
  if m < 2 ^ (w - 1) then (m : Int) else (m : Int) - (2 ^ w : Nat)

/-- The low `w` bits of an integer, as a natural number. -/
def ofSigned (w : Nat) (i : Int) : Nat := (i % ((2 ^ w : Nat) : Int)).toNat

end Sys2Proof
end

