-- ==== Sys2Proof/Machine/Table.lean ====
section
/-! DEFINITION. Sparse tables in one canonical form, used for every memory, register file and array of
the model: keys strictly rising, and no entry equal to what an unlisted key reads as. -/

namespace Sys2Proof.Machine

/-- A sparse table: key and value pairs. -/
abbrev Table (α : Type) := List (Nat × α)

/-- What key `k` reads as; `d` gives the value of an unlisted key. -/
def tget {α : Type} (d : Nat → α) : Table α → Nat → α
  | [], k => d k
  | (j, v) :: r, k => if j = k then v else tget d r k

/-- The table without key `k`. -/
def tdel {α : Type} : Table α → Nat → Table α
  | [], _ => []
  | (j, v) :: r, k => if j = k then tdel r k else (j, v) :: tdel r k

/-- The table with `(k, v)` put before the first greater key. -/
def tins {α : Type} : Table α → Nat → α → Table α
  | [], k, v => [(k, v)]
  | (j, w) :: r, k, v => if k < j then (k, v) :: (j, w) :: r else (j, w) :: tins r k v

/-- Key `k` set to `v`; setting what an unlisted key reads as removes the entry. -/
def tset {α : Type} [DecidableEq α] (d : Nat → α) (t : Table α) (k : Nat) (v : α) : Table α :=
  if v = d k then tdel t k else tins (tdel t k) k v

/-- Every key of the table is above `b`. -/
def tabove {α : Type} (b : Nat) : Table α → Bool
  | [] => true
  | (j, _) :: r => decide (b < j) && tabove b r

/-- The canonical form. -/
def twf {α : Type} [DecidableEq α] (d : Nat → α) : Table α → Bool
  | [] => true
  | (j, v) :: r => decide (v ≠ d j) && tabove j r && twf d r

end Sys2Proof.Machine
end

