-- ==== Sys2Proof/Machine/Parts.lean ====
section
/-! DEFINITION. The state of the sequencer, of line supervision, of the tag block and of WEAR: the parts of the state that a
join image carries whole beside registers and memory (R406), and that BULK therefore names. -/

namespace Sys2Proof.Machine

/-! ### The sequencer (R256 to R272) -/

/-- An announcement in its slot (R260, R261). -/
structure Ann where
  /-- 1 PENDING, 2 ACTIVE, 3 RELEASING (R272) -/
  st : Nat
  handle : Word
  hue : Nat
  prio : Nat
  source : Nat
  tag : W32
  zones : Nat
  /-- ms -/
  fadeIn : Nat
  fadeOut : Nat
  preempt : Nat
  item : W32
  repeats : Nat
  /-- the order of START (R266) -/
  order : Nat
  /-- frames spent PENDING (R261) -/
  age : Nat
  /-- 0 CANCELLED, 1 FINISHED, 2 HUE_RESET, 3 STANDBY, 4 SEQ_RESET, once RELEASING (R265) -/
  reason : Nat
  started : Bool
  deriving DecidableEq, Repr

/-- The state of one zone (R266). -/
structure Zone where
  holder : Option Nat
  g0 : Nat
  gt : Nat
  f : Nat
  j : Nat
  gEnd : Nat
  deriving DecidableEq, Repr

/-- A message player (R269). -/
structure Player where
  slot : Option Nat
  ready : Bool
  item : W32
  pos : Nat
  left : Nat
  /-- blocks of 8 frames in the prefetch buffer -/
  buffered : Nat
  /-- a read failed in both copies: the player outputs zero -/
  dead : Bool
  /-- the last sample of the last repeat has been produced -/
  finished : Bool
  deriving DecidableEq, Repr

/-- A chime generator (R270). -/
structure Chime where
  slot : Option Nat
  pattern : Nat
  note : Nat
  /-- samples of the current note produced -/
  pos : Nat
  phase : W32
  left : Nat
  finished : Bool
  deriving DecidableEq, Repr

/-- The announcement sequencer. -/
structure SeqSt where
  anns : Table (Option Ann)
  zones : Table Zone
  players : Table Player
  chimes : Table Chime
  nextOrder : Nat
  /-- CMD_Q_INVALID stands for the hue (R262) -/
  cmdBad : Table Bool
  /-- CPL_Q_INVALID stands for the hue (R265) -/
  cplBad : Table Bool
  /-- the sequencer has come to its stop (R271) -/
  stopped : Bool
  /-- the samples each player and chime generator produced for the next frame, by source (R269, R270) -/
  samples : Table (List W32)
  /-- the frame period in which players and chimes advanced last (R269) -/
  advanced : Option Word
  /-- announcements to end with SEQ_RESET when the block reset completes (R271) -/
  resetAnns : List (Nat × Ann)
  deriving DecidableEq, Repr

/-! ### Line supervision (R309 to R342) -/

/-- An accumulation window of a line (R316). -/
structure SupWin where
  /-- the window's number and its ACC_SEL -/
  j : Nat
  acc : Nat
  /-- sense frames so far, newest first: voltage and current units; none where concealed -/
  sense : List (Option (List (Int × Int)))
  /-- bands whose applied level was at or above −120 dBFS in some frame, one bit each (R318) -/
  loud : Nat
  /-- the values WEAR published, newest first, as binary32; no value is none (R320) -/
  heat : List (Option (Nat × Nat))
  /-- the night window in which every frame so far lay, by its first frame (R330) -/
  night : Option Word
  /-- the sense frames just before the window, newest first, as the filters see them (R314) -/
  before : List (Option (List (Int × Int)))
  deriving DecidableEq, Repr

/-- The estimate of a window, waiting for its publication (R318, R320, R336). -/
structure SupEst where
  frame : Word
  /-- R and X of each band as binary32; none is NO_SIGNAL -/
  bands : List (Option (Nat × Nat))
  dt : Nat
  unc : Nat
  noThermal : Bool
  acc : Nat
  /-- the night window that held the whole window, by its first frame (R330) -/
  night : Option Word
  deriving DecidableEq, Repr

/-- A tone that was stopped (R326): the output frame in which its 12-sample fade begins, the phase there, its frequency and
its level. -/
structure ToneFade where
  first : Nat
  phase : W32
  freq : Nat
  level : Word
  deriving DecidableEq, Repr

/-- A line's night measurement, from its group's first sweep frame to its last (R326, R327). -/
structure NightLine where
  /-- the tone plays -/
  playing : Bool
  /-- its amplitude from step 0 on, binary64, full scale 1.0 (R326) -/
  level : Word
  overload : Bool
  incomplete : Bool
  /-- sense frames of the group, newest first -/
  sense : List (Nat × Option (List (Int × Int)))
  /-- phasors of the measured steps, binary64: step, V and I -/
  steps : List (Nat × (Word × Word) × (Word × Word))
  deriving DecidableEq, Repr

/-- A night result waiting for its publication (R328, R336). -/
structure NightSet where
  frame : Word
  /-- the first frame of its night window (R330) -/
  win : Word
  flags : Nat
  measured : Nat
  cap : Int
  /-- binary32 -/
  c : Nat
  g : Nat
  vrms : Nat
  zmag : List (Nat × Nat)
  deriving DecidableEq, Repr

/-- A supervised line beyond its registers and its blocks in SRAM. -/
structure SupLine where
  /-- supervised in the frame last read -/
  on : Bool
  /-- applied levels a_b, 16 bits (R311) -/
  level : Table Nat
  /-- the white sequence's register (R312) -/
  lfsr : W32
  /-- the white sequence of recent output frames, newest first, and whether the frame carried the probe (R312, R313) -/
  probe : List (Nat × Bool × List Int)
  /-- recent sense frames, newest first (R314) -/
  past : List (Option (List (Int × Int)))
  win : Option SupWin
  /-- a window that has ended and is not yet computed -/
  ended : Option SupWin
  est : Option SupEst
  /-- published sets in a row with the same LINE_STATE (R323) -/
  run : Nat
  /-- the candidate's bands (R330) -/
  candBands : Option SupEst
  /-- night results, newest first, by the first frame of their night window: C and G, none where a flag forbids them
  (R330) -/
  candNight : List (Word × Option (Nat × Nat))
  sweep : Option NightLine
  fade : Option ToneFade
  nightSet : Option NightSet
  deriving DecidableEq, Repr

/-- A night window (R324). -/
structure NightWin where
  frame : Word
  len : Nat
  groups : Nat
  /-- the group in its sweep frames -/
  group : Option Nat
  /-- groups already begun -/
  begun : List Nat
  swept : Nat
  flagged : Nat
  deriving DecidableEq, Repr

/-- The supervision engine. -/
structure SupSt where
  lines : Table SupLine
  night : Option NightWin
  /-- a night window that has ended and has no record yet (R328) -/
  ended : Option NightWin
  /-- the tone's phase at the first sample of the group in its sweep frames, or of the next (R326) -/
  phase : W32
  /-- the level records of this period's output frame were read, and the lines whose probe is zero (R310) -/
  stale : List Nat
  deriving DecidableEq, Repr

/-! ### Tags and wear (R343 to R363) -/

/-- A frame a lane sends, or is about to send (R349, R350). -/
structure TagTx where
  cmd : Nat
  /-- the short address, or the ID -/
  addr : Nat
  /-- its downlink has started -/
  sent : Bool
  /-- LAST_WRITE as a page-2 write carries it -/
  stamp : Word
  deriving DecidableEq, Repr

/-- The walk of R351. -/
structure TagWalk where
  /-- the bits of the active tags, most significant first, up to their position -/
  known : List Bool
  /-- the first burst is still to come -/
  first : Bool
  /-- depths at which tags wait -/
  waiting : List Nat
  /-- IDs in the order of their addresses -/
  ids : List Word
  deriving DecidableEq, Repr

/-- One observed bit of an uplink (R346). -/
inductive UpBit where
  | zero | one | collision | empty
  deriving DecidableEq, Repr

/-- What a lane has measured of an uplink (R346). -/
structure TagUp where
  /-- the sample of the line's signal at which the first half-bit begins; the 96 samples before it are carrier only -/
  start : Nat
  /-- sense current of the 96 samples being measured, newest first; none where concealed -/
  buf : List (Option Int)
  /-- the amplitude of the carrier alone, binary64 -/
  carrier : Option Word
  /-- the half-bits measured, oldest first: loaded or not -/
  halves : List Bool
  deriving DecidableEq, Repr

/-- A lane at work on a line (R353). -/
structure TagLane where
  line : Nat
  /-- the step: 1 ENUM, 2 READ, 3 WRITE_DUE -/
  step : Nat
  tx : Option TagTx
  walk : Option TagWalk
  /-- IDs found by this pass's walk, by short address -/
  ids : List Word
  /-- reads and writes still to make: command and short address -/
  todo : List (Nat × Nat)
  /-- pages read: address, page and contents -/
  pages : List (Nat × Nat × List Byte)
  /-- the uplink being measured -/
  up : Option TagUp
  deriving DecidableEq, Repr

/-- What a lane plays on a line (R346): tones one after another, each a frequency and a count of samples, from output
frame `first` on; then the carrier while `carry` holds. -/
structure TagSig where
  line : Nat
  first : Nat
  segs : List (Nat × Nat)
  carry : Bool
  /-- the sample at which a 12-sample fade begins (R348) -/
  cut : Option Nat
  deriving DecidableEq, Repr

/-- The last page-2 write sent to a tag (R345). -/
structure TagWrite where
  id : Nat
  day : Nat
  stamp : Word
  /-- a READ of page 2 has shown a different LAST_WRITE since -/
  differs : Bool
  deriving DecidableEq, Repr

/-- The tag block. -/
structure TagSt where
  /-- lines queued -/
  queue : List Nat
  lanes : Table (Option TagLane)
  sigs : List TagSig
  writes : List TagWrite
  /-- the day whose page-2 writes are due (R345) -/
  dueDay : Option Nat
  deriving DecidableEq, Repr

/-- A line as WEAR keeps it (R356, R358). -/
structure WearLine where
  /-- powers of the step's frames so far, oldest first; concealed frames leave none -/
  powers : List Word
  p : Word
  /-- D, Q8.8 dB -/
  derate : Nat
  /-- ΔT and U as binary32; none is NO_THERMAL -/
  heat : Option (Nat × Nat)
  deriving DecidableEq, Repr

/-- The wear block. -/
structure WearSt where
  lines : Table WearLine
  /-- the copied model table, an entry each (R360) -/
  models : List Nat
  /-- the tables that MODEL_COMMITs left for later steps, newest first, each with its frame period -/
  next : List (Word × List Nat)
  /-- WEAR's own copies of the records, as the number of their 64 bytes: key 64 × line + record; none where WEAR has
  written none (R355) -/
  recs : Table (Option Nat)
  /-- frame period of the last step -/
  stepped : Option Word
  deriving DecidableEq, Repr

end Sys2Proof.Machine
end

