-- ==== Sys2Proof/Syntax.lean ====
section
/-! DEFINITION. The commands of the SD192: one constructor of `Instr` for each row of
spec/opcode_table.json, with the operands the row needs, and the operand types.
A command that is a register write with a row of its own names its initiator (R39). -/

namespace Sys2Proof

/-- Who makes an access (R39). -/
inductive Initiator where
  | core (p : Pair)
  | spindle (c : Chan)
  | pcie
  | hank (h : Hue)
  | bootRom
  deriving DecidableEq, Repr

/-- A block instance, the owner of one or more register pages (R40). -/
inductive Blk where
  | mod | gw
  | hue (h : Hue)
  | evc | spindle | bobbin | cht | seq | log
  | ply (p : Pair)
  | strm (net : Fin 2)
  | ptp
  | tdm (k : Fin 12)
  | sup | tag | wear | twin | bist | cont | rel | stor
  deriving DecidableEq, Repr

/-- A fabric error on one access: an error response, or uncorrectable ECC in memory (R178). -/
inductive MemErr where
  | none | response | ecc
  deriving DecidableEq, Repr

/-- How the range maintenance or IFILL of a pair ends (R172, R178). -/
structure RangeEnd where
  p : Pair
  err : MemErr
  deriving DecidableEq, Repr

/-- A response to a Spindle channel: whether it answers a request that had timed out, and how it ends (R233, R234). -/
structure SpindleReply where
  late : Bool
  err : MemErr
  deriving DecidableEq, Repr

/-- The network and the domain that a PTP message comes from (R300). -/
structure PtpSource where
  net : Fin 2
  domain : Byte
  deriving DecidableEq, Repr

/-- The twin states (R405). -/
inductive TwinState where
  | startUp | joining | partner | owner | alone | quiet
  deriving DecidableEq, Repr

/-- The four fault classes of a pair, highest first (R369). -/
inductive FaultClass where
  | checker | delayPath | divergence | latent
  deriving DecidableEq, Repr

/-- What the PLY block of a pair meets in one cycle (R366, R369, R370): a rail error or comparators that disagree, of a group;
a parity error, of a stage of the delay registers; a difference both comparators report, of a group; one in a Spindle read of the
local window, of the byte where the plies' copies differ; an ECC error of local memory that one ply alone cannot correct. -/
inductive PlyFault where
  | checker (group : Fin 38)
  | delay (stage : Fin 64)
  | difference (group : Fin 38)
  | windowRead (offset : BitVec 19)
  | eccOnePly (offset : BitVec 19)
  deriving DecidableEq, Repr

/-- The peer's carrier lines as a test meets them (R387, R390): the level of its BEAT line, and whether its ownership line is
low. -/
structure PeerLines where
  beat : Bool
  own : Bool
  deriving DecidableEq, Repr

/-- A LINK message as received, up to its CRC: words 0 to LEN + 1, and the CRC (R393). -/
structure LinkWords where
  words : List Word
  crc : W32
  deriving DecidableEq, Repr

/-- A received media packet, with its headers as the port reads them (R284). -/
structure MediaPacket where
  net : Fin 2
  dst : W32
  src : W32
  port : BitVec 16
  /-- an unfragmented IPv4 UDP datagram -/
  plain : Bool
  /-- the UDP checksum is zero or correct -/
  checksumOk : Bool
  /-- the VLAN tag required by VLAN_EN is there, or none is required -/
  vlanOk : Bool
  rtpVersion : Fin 4
  rtpP : Bool
  rtpCC : Fin 16
  pt : BitVec 7
  ts : W32
  /-- the payload after any header extension -/
  payload : List Byte
  deriving DecidableEq, Repr

/-- A log event as a block hands it to the log (R274). -/
structure LogEvent where
  typ : BitVec 16
  hue : Hue
  /-- 0 slate, 1 amber, 2 crimson -/
  sev : Fin 3
  /-- the 32 payload bytes, little-endian -/
  payload : Nat
  arg : Word
  deriving DecidableEq, Repr

/-- A control change, with what it carries from the moment of its write (R28, R29, R458). -/
inductive ChangeOp where
  | hueReset (h : Hue)
  | ctxWrite (h : Hue) (q : BitVec 15) (data : List W32)
  | dbEnq (h : Hue) (port : BitVec 8) (q : BitVec 15) (words : List W32)
  | dbConsume (h : Hue) (port : BitVec 8) (q : BitVec 15) (n : Nat)
  | staging (h : Hue) (index : BitVec 9) (data : List W32)
  | inval (index : BitVec 9)
  | invalAll
  | arm (slotB : Bool) (both : Bool) (frame : Word) (bank : List (W32 × Word))
  | cancel (slotB : Bool) (both : Bool)
  | streamEn (tx : Bool) (s : Fin 128) (en : Bool)
  | mtu (net : Fin 2) (word : W32)
  | chime (addr : Nat) (word : W32)
  | ptpStep (offset : Int)
  | nightStart
  | nightAbort
  | adopt (mask : List W32)
  | load (line : BitVec 8) (data : List W32)
  | supConfig (addr : Nat) (word : W32)
  | modelCommit
  | wearRecord (line : BitVec 8) (index : BitVec 6) (data : List W32)
  | passStart (mask : List W32)
  | passAbort
  | pairReset (p : Pair)
  | shutdown | standby | wake
  | twinQuiet (slotB : Bool) (hold : Bool)
  | twinRelease (slotB : Bool)
  | twinJoin (slotB : Bool)
  | seqFloor (h : Hue)
  | joinFrame
  | rejoinCold (p : Pair)
  deriving DecidableEq, Repr

/-- Where a Hank datagram comes from, and the UDP port it was sent to (R60). -/
structure HankFrom where
  /-- the management port it came in on, and its source address and port -/
  mgmt : Fin 2
  ip : W32
  port : BitVec 16
  /-- the UDP port it was sent to -/
  to_ : BitVec 16
  deriving DecidableEq, Repr

/-- A Hank datagram: where it comes from, and its message (R60, R61). -/
structure HankDatagram where
  src : HankFrom
  msg : List Byte
  deriving DecidableEq, Repr

/-- The Hank request that a change comes from, with the reply it will receive, up to its tag and without COMMIT_FRAME
(R67, R395). -/
structure HankTag where
  hue : Hue
  seq : Word
  reply : List Byte
  deriving DecidableEq, Repr

/-- A change as it is held for its commit: its number, and the Hank request that made it (R67, R398). -/
structure Held where
  num : Nat
  op : ChangeOp
  hank : Option HankTag
  deriving DecidableEq, Repr

/-- What a BULK message carries (R395): words for its target address; parts of a join image that have no address, or stand for
a run of equal blocks (R65, R343, R406); and what one module asks of the other in "on demand" (R88, R376), for which the manual
gives no form (DESIGN CHOICE, log entries 73 and 74). -/
inductive BulkBlock where
  | words (l : List Word)
  /-- the blocks of the join image that are still to come (R412) -/
  | size (blocks : Nat)
  /-- a join image begins: all that it covers reads as after reset until its other blocks come. Spans of addresses, the first
  and the last, with the stream buffers that they leave out (R406) -/
  | cleared (cover except : List (Nat × Nat))
  | seqRecord (h : Hue) (last : Word) (cached : Option (List Byte))
  | sequencer (s : Machine.SeqSt)
  | supervision (s : Machine.SupSt)
  | tags (s : Machine.TagSt)
  | wear (s : Machine.WearSt)
  /-- the armed switch, and the masks of the last frame (R83, R88) -/
  | schedule (armed : Option (Word × List (W32 × Word))) (prevMask : Machine.Table Word)
  /-- a resynchronising pair asks for the local memory of its twin, or asks no more (R376) -/
  | askMemory (p : Pair) (wanted : Bool)
  /-- a pair that the peer resynchronises signalled completion in a frame period (R376) -/
  | completed (p : Pair) (period : Word)
  /-- a new pair asks for the state of a skein, and has it all (R88, R90) -/
  | askSkein (s : Fin 64) (p : Pair)
  | movedSkein (s : Fin 64)
  deriving DecidableEq, Repr

/-- The HELLO fields (R395). -/
structure Hello where
  slotB : Bool
  state : TwinState
  serial : Word
  imageId : W32
  rate48 : Bool
  wired : Bool
  deriving DecidableEq, Repr

/-- An Announce: its domain (R307), and the fields that the BMCA compares (R303). -/
structure Announce where
  net : Fin 2
  domain : Byte
  priority1 : Byte
  clockClass : Byte
  accuracy : Byte
  variance : BitVec 16
  priority2 : Byte
  gmId : Word
  steps : BitVec 16
  deriving DecidableEq, Repr

/-- What a write access carries (R47, R50): up to eight bytes, or a burst, which is any set of the bytes of one 128-byte
block, each with its place in the block. -/
inductive AccessData where
  | word (v : Word)
  | burst (bytes : List (Fin 128 × Byte))
  deriving DecidableEq, Repr

/-- The commands: one constructor per row of the opcode table. -/
inductive Instr where
  -- frame timeline
  | frameTick
  | inputReady
  | frameStart
  | outputOpen
  | migrationTrigger
  | txStart
  | seal
  | rxCutoff
  | sampleTick (sample : Fin 12) (sdin : List W32)
  | heartbeatTest (lines : PeerLines)
  -- core control
  | bundleIssue (p : Pair)
  | fixedLatencyLand (p : Pair)
  | syncClassApply (p : Pair)
  | syncBundle (p : Pair)
  | jump (p : Pair) (v : Word)
  | br (p : Pair) (v : Word)
  | call (p : Pair) (v : Word)
  | callr (p : Pair) (v : Word)
  | ret (p : Pair)
  | rti (p : Pair)
  | lcount (p : Pair) (lvl : Fin 3) (v : Word)
  | lclr (p : Pair) (lvl : Fin 3)
  | lstateWrite (p : Pair) (lvl : Fin 3) (v : Word)
  | wait (p : Pair) (v : Word)
  | waitWake (p : Pair)
  | waitTimeout (p : Pair)
  -- CMAC
  | cmul (p : Pair) (c : Fin 4) (k : Fin 4) (v : Word) (sat : Bool)
  | cmulc (p : Pair) (c : Fin 4) (k : Fin 4) (v : Word) (sat : Bool)
  | cmac (p : Pair) (c : Fin 4) (k : Fin 4) (v : Word) (sat : Bool)
  | cmacc (p : Pair) (c : Fin 4) (k : Fin 4) (v : Word) (sat : Bool)
  | cmsc (p : Pair) (c : Fin 4) (k : Fin 4) (v : Word) (sat : Bool)
  | cmscc (p : Pair) (c : Fin 4) (k : Fin 4) (v : Word) (sat : Bool)
  | qdot (p : Pair) (c : Fin 4) (k : Fin 4) (v : Word) (sat : Bool)
  | qdotn (p : Pair) (c : Fin 4) (k : Fin 4) (v : Word) (sat : Bool)
  | qset (p : Pair) (c : Fin 4) (k : Fin 4) (v : Word) (sat : Bool)
  | clr (p : Pair) (c : Fin 4) (k : Fin 4)
  | extr (p : Pair) (c : Fin 4) (k : Fin 4) (sat : Bool)
  | rawx (p : Pair) (c : Fin 4) (k : Fin 4) (v : Word)
  | raww (p : Pair) (c : Fin 4) (k : Fin 4) (v : Word)
  | cmacStatClear (p : Pair) (c : Fin 4)
  -- ALU
  | add32 (p : Pair) (u : Fin 4) (b : Word) (sat : Bool)
  | add64 (p : Pair) (u : Fin 4) (b : Word) (sat : Bool)
  | sub32 (p : Pair) (u : Fin 4) (b : Word) (sat : Bool)
  | sub64 (p : Pair) (u : Fin 4) (b : Word) (sat : Bool)
  | addx32 (p : Pair) (u : Fin 4) (b : Word)
  | addx64 (p : Pair) (u : Fin 4) (b : Word)
  | subx32 (p : Pair) (u : Fin 4) (b : Word)
  | subx64 (p : Pair) (u : Fin 4) (b : Word)
  | and (p : Pair) (u : Fin 4) (b : Word)
  | or (p : Pair) (u : Fin 4) (b : Word)
  | xor (p : Pair) (u : Fin 4) (b : Word)
  | andn (p : Pair) (u : Fin 4) (b : Word)
  | shl (p : Pair) (u : Fin 4) (b : Word) (sat : Bool)
  | shr (p : Pair) (u : Fin 4) (b : Word)
  | sar (p : Pair) (u : Fin 4) (b : Word)
  | sar32 (p : Pair) (u : Fin 4) (b : Word)
  | clz32 (p : Pair) (u : Fin 4) (b : Word)
  | clz64 (p : Pair) (u : Fin 4) (b : Word)
  | cls32 (p : Pair) (u : Fin 4) (b : Word)
  | cmpeq (p : Pair) (u : Fin 4) (b : Word)
  | cmplt (p : Pair) (u : Fin 4) (b : Word)
  | cmpltu (p : Pair) (u : Fin 4) (b : Word)
  | min (p : Pair) (u : Fin 4) (b : Word)
  | max (p : Pair) (u : Fin 4) (b : Word)
  -- MUL
  | muls (p : Pair) (b : Word)
  | mulu (p : Pair) (b : Word)
  | mulsu (p : Pair) (b : Word)
  | mulq (p : Pair) (b : Word) (sat : Bool)
  | mul32 (p : Pair) (b : Word) (sat : Bool)
  -- DIV
  | divs32 (p : Pair) (b : Word) (sat : Bool)
  | divu32 (p : Pair) (b : Word)
  | rems32 (p : Pair) (b : Word)
  | remu32 (p : Pair) (b : Word)
  | divs64 (p : Pair) (b : Word) (sat : Bool)
  | divu64 (p : Pair) (b : Word)
  | rems64 (p : Pair) (b : Word)
  | remu64 (p : Pair) (b : Word)
  | divResultLand (p : Pair)
  -- FPU; dbl selects the binary64 port
  | fadd (p : Pair) (dbl : Bool) (b : Word)
  | fsub (p : Pair) (dbl : Bool) (b : Word)
  | fmul (p : Pair) (dbl : Bool) (b : Word)
  | fma (p : Pair) (dbl : Bool) (b : Word)
  | fms (p : Pair) (dbl : Bool) (b : Word)
  | fnma (p : Pair) (dbl : Bool) (b : Word)
  | fmin (p : Pair) (dbl : Bool) (b : Word)
  | fmax (p : Pair) (dbl : Bool) (b : Word)
  | fcmpeq (p : Pair) (dbl : Bool) (b : Word)
  | fcmplt (p : Pair) (dbl : Bool) (b : Word)
  | fcmple (p : Pair) (dbl : Bool) (b : Word)
  | fcmpun (p : Pair) (dbl : Bool) (b : Word)
  | fdiv (p : Pair) (dbl : Bool) (b : Word)
  | fsqrt (p : Pair) (dbl : Bool) (b : Word)
  | fpuIterLand (p : Pair)
  | fcvtDS (p : Pair) (b : Word)
  | fcvtSD (p : Pair) (b : Word)
  | fcvtSW (p : Pair) (b : Word)
  | fcvtDW (p : Pair) (b : Word)
  | fcvtDL (p : Pair) (b : Word)
  | fcvtWS (p : Pair) (b : Word)
  | fcvtWD (p : Pair) (b : Word)
  | fcvtLD (p : Pair) (b : Word)
  | fcvtSQ (p : Pair) (b : Word)
  | fcvtDQ (p : Pair) (b : Word)
  | fcvtQS (p : Pair) (b : Word)
  | fcvtQD (p : Pair) (b : Word)
  | fstatWrite (p : Pair) (v : Word)
  -- LSU
  | lsuLd8u (p : Pair) (u : Fin 2) (v : Word)
  | lsuLd8s (p : Pair) (u : Fin 2) (v : Word)
  | lsuLd16u (p : Pair) (u : Fin 2) (v : Word)
  | lsuLd16s (p : Pair) (u : Fin 2) (v : Word)
  | lsuLd32u (p : Pair) (u : Fin 2) (v : Word)
  | lsuLd32s (p : Pair) (u : Fin 2) (v : Word)
  | lsuLd64 (p : Pair) (u : Fin 2) (v : Word)
  | lsuLd128 (p : Pair) (u : Fin 2) (v : Word)
  | lsuLd256 (p : Pair) (u : Fin 2) (v : Word)
  | ldqa (p : Pair) (u : Fin 2) (v : Word)
  | lsuSt8 (p : Pair) (u : Fin 2) (v : Word)
  | lsuSt16 (p : Pair) (u : Fin 2) (v : Word)
  | lsuSt32 (p : Pair) (u : Fin 2) (v : Word)
  | lsuSt64 (p : Pair) (u : Fin 2) (v : Word)
  | lsuSt128 (p : Pair) (u : Fin 2) (v : Word)
  | lsuSt256 (p : Pair) (u : Fin 2) (v : Word)
  | stqa (p : Pair) (u : Fin 2) (v : Word)
  -- EXT
  | extLd32u (p : Pair) (a : Word)
  | extLd32s (p : Pair) (a : Word)
  | extLd64 (p : Pair) (a : Word)
  | extSt32 (p : Pair) (a : Word)
  | extSt64 (p : Pair) (a : Word)
  | extLoadResponse (p : Pair) (err : MemErr)
  | tornRetry (p : Pair)
  | writeBufferSend (p : Pair) (err : MemErr)
  | dclean (p : Pair) (a : Word)
  | dinv (p : Pair) (a : Word)
  | dcleaninv (p : Pair) (a : Word)
  | dcleanR (p : Pair) (a : Word)
  | dinvR (p : Pair) (a : Word)
  | dcleaninvR (p : Pair) (a : Word)
  | dcleanAll (p : Pair)
  | dcleaninvAll (p : Pair)
  | iinv (p : Pair) (a : Word)
  | iinvR (p : Pair) (a : Word)
  | iinvAll (p : Pair)
  | ifill (p : Pair) (a : Word)
  | rangeOpDone (r : RangeEnd)
  | fence (p : Pair)
  | fenceComplete (p : Pair)
  | icacheMissFill (p : Pair) (err : MemErr)
  -- bobbin operations of a core
  | bobbinEnq (p : Pair) (q : Word)
  | bobbinDeq (p : Pair) (q : Word)
  | bobbinPeek (p : Pair) (q : Word)
  | bobbinOcc (p : Pair) (q : Word)
  | bobbinOpLand (p : Pair) (err : MemErr)
  -- event controller
  | evcRawChange (src : Fin 1024)
  | evcPulseCapture (src : Fin 1024)
  | evcPresent
  | evcAckSample (p : Pair)
  | evcHoldoffExpire (g : Fin 32)
  | evcComplete (ini : Initiator) (p : Pair) (v : W32)
  | evcSwset (ini : Initiator) (src : Fin 1024)
  | evcPendClear (ini : Initiator) (src : Fin 1024)
  | stillFire
  | sleepReq (ini : Initiator)
  | sleepCancel (ini : Initiator)
  | sleepEnter
  | aonWake (entry : Fin 32)
  | frameTimerPulse (t : Fin 16)
  -- Spindle
  | chEnSet (ini : Initiator) (c : Chan)
  | chEnClear (ini : Initiator) (c : Chan)
  | chArm (ini : Initiator) (c : Chan)
  | chDisarm (ini : Initiator) (c : Chan)
  | chSwtrig (ini : Initiator) (c : Chan)
  | spindleTrigger (line : Byte)
  | spindleReadIssue
  | spindleReadResponse (c : Chan) (r : SpindleReply)
  | spindleWriteIssue
  | spindleWriteResponse (c : Chan) (r : SpindleReply)
  | respTimeout (c : Chan)
  | restartHi (ini : Initiator) (c : Chan) (v : W32)
  | spindleChQuiesceEnd (c : Chan)
  -- bobbins, hues, sequencer, log
  | ctxRead (ini : Initiator) (h : Hue)
  | ctxWrite (ini : Initiator) (h : Hue)
  | doorbellEnq (ini : Initiator) (h : Hue) (port : Byte) (v : W32)
  | doorbellConsume (ini : Initiator) (h : Hue) (port : Byte) (v : W32)
  | hueReset (ini : Initiator) (h : Hue)
  | hueResetDone (h : Hue)
  | seqStart (h : Hue) (words : List Word)
  | seqCancel (h : Hue) (words : List Word)
  | seqCancelAll (h : Hue) (words : List Word)
  | seqReservedOpcode (h : Hue) (words : List Word)
  | playerPrefetchRead (pl : Fin 64) (ok0 ok1 : Bool)
  | readyTimeout (slot : Byte)
  | playerAdvance
  | logEvent (e : LogEvent)
  | logWrite (err : MemErr)
  | logRetry (err : MemErr)
  | lostRecordWrite
  -- streams and time
  | rxPacket (pkt : MediaPacket)
  | streamEnWrite (ini : Initiator) (tx : Bool) (stream : Fin 128) (en : Bool)
  | igmpQuery (net : Fin 2) (version : Fin 4)
  | arpRequest (net : Fin 2) (ip : W32)
  | sfpLinkChange (net : Fin 2) (up : Bool)
  | ptpSyncRx (src : PtpSource) (offset : Int) (freq : Int)
  | ptpDelayRespRx (src : PtpSource) (delay : Int)
  | ptpDelayReqTx (net : Fin 2)
  | ptpAnnounceRx (a : Announce)
  | ptpAnnounceTimeout (net : Fin 2)
  | ptpSyncTx (net : Fin 2)
  | ptpHoldoverExpire
  | ptpStepReq (ini : Initiator)
  -- supervision
  | supWindowEnd (k : Line)
  | supPublish (k : Line)
  | nightStart (ini : Initiator)
  | nightAbort (ini : Initiator)
  | nightGroupBegin (g : Fin 8)
  | nightLevelSet (g : Fin 8)
  | nightStepEnd (g : Fin 8) (step : Fin 16)
  | nightGroupEnd (g : Fin 8)
  | nightPublish (k : Line)
  | nightWindowEnd
  | adopt (ini : Initiator)
  | load (ini : Initiator)
  -- tags and wear
  | passStart (ini : Initiator)
  | passAbort (ini : Initiator)
  | tagLaneAssign
  | tagDownlinkStart (lane : Fin 24)
  | enumStart (lane : Fin 24)
  | ping (lane : Fin 24) (addr : BitVec 16)
  | readPage (lane : Fin 24) (page : Fin 8) (addr : BitVec 16)
  | readPageId (lane : Fin 24) (page : Fin 8) (id : Word)
  | writePage (lane : Fin 24) (page : Fin 8) (addr : BitVec 16)
  | enumBurstEnd (lane : Fin 24) (line : Line)
  | tagReplyRx (lane : Fin 24) (line : Line)
  | tagReplyTimeout (lane : Fin 24)
  | tagWriteDue
  | wearStep
  | modelCommit (ini : Initiator)
  | wearRecordCommit (ini : Initiator)
  -- lockstep
  | comparatorMismatch (p : Pair) (fault : PlyFault) (more : List PlyFault) (port : BitVec 12) (plyB : Word)
  | plyReset (p : Pair)
  | injectionEnd (p : Pair) (silent : Option (Fin 64))
  | resyncCopyComplete (p : Pair)
  | resyncTimeout (p : Pair)
  | quarRelease (ini : Initiator) (p : Pair)
  | pairReset (ini : Initiator) (p : Pair)
  | dbgHalt (ini : Initiator) (p : Pair)
  | dbgResume (ini : Initiator) (p : Pair)
  | dbgStep (ini : Initiator) (p : Pair)
  | dbgRead (ini : Initiator) (p : Pair)
  | dbgWrite (ini : Initiator) (p : Pair)
  -- twin
  | helloRx (lseq : W32) (h : Hello)
  | beatRx (lseq : W32) (sample : Fin 12) (state : TwinState) (tick : Word)
  | linkRx (msg : LinkWords) (acked : W32) (lanes : Fin 16)
  | inPktRx (lseq : W32) (stream : Fin 128) (net : Fin 2) (frame : Word) (ts : W32) (payload : List Byte)
  | inTdmRx (lseq : W32) (port : Fin 12) (frame : Word) (words : List W32)
  | inDigestRx (lseq : W32) (frame : Word) (digest : Word)
  | changeFwdRx (lseq : W32) (op : ChangeOp) (hank : Option HankTag)
  | changeRx (lseq : W32) (c : Held)
  | sealRx (lseq : W32) (frame : Word) (num : Nat)
  | sealAckRx (lseq : W32) (frame : Word)
  | shadowRx (lseq : W32) (frame : Word) (words : List W32)
  | hashRx (lseq : W32) (frame : Word) (port : Bool) (index : Fin 128) (hash : Word)
  | sweepRx (lseq : W32) (frame : Word) (p : Pair) (words : List Word)
  | bulkRx (lseq : W32) (addr : Addr) (block : BulkBlock)
  | bulkFwdRx (lseq : W32) (addr : Addr) (data : Word)
  | stateRx (lseq : W32) (state : TwinState) (hold silence : Bool)
  | apdinRetxTimeout
  | apdinRxSilence
  | apdinLaneLoss (lane : Fin 4)
  | witnessPacketRx
  | splitBrainTimeout
  | wdogKick (ini : Initiator)
  | watchdogExpire
  | quiet (ini : Initiator)
  | quietHold (ini : Initiator)
  | releaseHold (ini : Initiator)
  | join (ini : Initiator)
  | joinTimeout
  -- start-up, shut-down, power, storage
  | powerGood (ms : W32)
  | quickTestEnd (sigs : List Word)
  | ptpInitialStep (ns : Word)
  | moduleReset (slotB : Bool)
  | run (ini : Initiator)
  | bistTestEnd (index : Fin 42) (sig : Word)
  | shutdown (ini : Initiator)
  | shutdownGroupEnd
  | standby (ini : Initiator)
  | standbyEntryComplete
  | wake (ini : Initiator)
  | wakeRestore
  | supplyInputLoss (b : Bool)
  | supplyBothLost
  | supplyRecovery (b : Bool)
  | holdupEnd
  | overtempTrip
  | logPersistCopy
  | norErase (ini : Initiator)
  | norProgram (ini : Initiator)
  | itemWrite (ini : Initiator)
  | itemDelete (ini : Initiator)
  | logFlush (ini : Initiator)
  | storCmdDone (ok : Bool)
  -- contacts, RS-485, relays
  | contactReading (n : Fin 32) (ohms : BitVec 16)
  | rs485CharRx (port : Fin 2) (char : Byte) (parityErr framingErr brk : Bool)
  | rs485IdleClose (port : Fin 2)
  | rs485TxEntry (port : Fin 2)
  | relOutWrite (ini : Initiator) (v : BitVec 16)
  | relOvercurrent (n : Fin 16)
  | relMismatch (n : Fin 16)
  -- management and generic register commands
  | hankRequest (r : HankDatagram)
  | hankCommittedReply (h : Hue)
  | keyCommit (ini : Initiator) (keepSeq : Bool)
  | keyRevoke (ini : Initiator)
  | chtInval (ini : Initiator) (index : BitVec 9)
  | invalAll (ini : Initiator)
  | stagingCommit (ini : Initiator) (h : Hue)
  | arm (ini : Initiator) (both : Bool)
  | cancel (ini : Initiator) (both : Bool)
  | doneCpn (ini : Initiator) (p : Pair) (v : W32)
  | softRst (ini : Initiator) (b : Blk)
  | softRstComplete (b : Blk)
  | enClear (ini : Initiator) (b : Blk)
  | enSet (ini : Initiator) (b : Blk)
  | quiesceComplete (b : Blk)
  | quiesceTimeout (b : Blk)
  | errCodeWrite (ini : Initiator) (b : Blk) (v : W32)
  | counterClear (ini : Initiator) (a : Addr)
  | timestampLowRead (ini : Initiator) (a : Addr)
  | registerWrite (ini : Initiator) (a : Addr) (data : AccessData) (bytes : Fin 9)
  | extResponseTimeout (p : Pair)
  | apdinLinkUp (lanes : Fin 5)
  deriving DecidableEq, Repr

end Sys2Proof
end

