-- ==== Sys2Proof/Decode.lean ====
section
/-! DEFINITION. The block has no instruction decoder; spec/opcode_table.json gives none of its rows any bits, so no
word spells a command. Bundles of the core pairs are decoded where they issue (R99 to R105). -/

namespace Sys2Proof

/-- The command that a word spells by the table's bits: none, since no row has bits. -/
def decodeTableWord (_nbits _w : Nat) : Option Instr := none

end Sys2Proof
end

