-- ==== Sys2Proof/Config.lean ====
section
/-! DEFINITION. What a part fixes, and the values the manual leaves open: constants with no body. -/

namespace Sys2Proof.Config

/-- A fresh undefined value for each number of the state's counter (R18). -/
opaque free : Nat → BitVec 64

/-- The bytes of the boot ROM window (R37): per part. -/
opaque bootRom : Nat → BitVec 8

/-- Whether a quotient of a chime is rounded up (R270 gives no rounding). -/
opaque roundsUp : (num : Int) → (den : Nat) → Bool

/-- The sine table of the chime generators, signed, 1.0 at full scale (R270 does not print it). -/
opaque sineTable : Nat → BitVec 32

/-- This module's PTP clockIdentity, clockAccuracy and offsetScaledLogVariance (R303 gives none). -/
opaque clockIdentity : BitVec 64
opaque clockAccuracy : BitVec 8
opaque clockVariance : BitVec 16

/-- Bits [63:32] of the result of an FPU conversion to a 32-bit integer or to Q1.31, by trigger port and
operand (R136 and R158 give [31:0]). -/
opaque fcvtHigh : Nat → BitVec 64 → BitVec 32

/-- The linear-phase lowpass filter of a correlator tier over a signal, one output for each input, delay
compensated (R314 gives no coefficients). -/
opaque lowpass : (tier : Nat) → (rate48 : Bool) → List Int → List Int

/-- A probe sample of a band: the white sequence up to the sample, newest first, through the band's filter and scaled
to the applied level (R312 gives neither). -/
opaque bandProbe : (rate48 : Bool) → (band : Nat) → (level : BitVec 16) → List Int → Int

/-- The 4,096 entries of the sine table of the tones, in Q1.31 (R326 and R346 print no table). -/
opaque toneTable : (i : Nat) → BitVec 32

/-- Whether a tone's sample of a level and of an interpolated table value, with the twelfths that a fade leaves of it, is rounded up
to the next unit of Q1.31 (R326 gives no rounding). -/
opaque toneUp : (level : BitVec 64) → (value : Int) → (fade : Nat) → Bool

/-- The source code of a SUP_BASELINE record: of an adopted or a loaded baseline (R341 gives no codes). -/
opaque baselineSource : (loaded : Bool) → BitVec 16

/-- The frequency of the night tone in its level-setting frames (R325 gives none). -/
opaque levelFreq : (rate48 : Bool) → Nat

/-- The phase step of a tone of `freq` Hz at a sample rate (R326, R346). -/
opaque toneStep : (freq rate : Nat) → BitVec 32

/-- The record that WEAR_COOL names on a line, from the IDs of its records (R358 names none). -/
opaque coolRecord : (line : Nat) → (ids : List Nat) → Nat

/-- The place of a twin divergence in its record: TX stream or TDM port, and its number; and its kind, output or input (R412 does
not encode them). -/
opaque divergencePlace : (port : Bool) → (index : Nat) → BitVec 16
opaque divergenceKind : (output : Bool) → BitVec 16

/-- The bytes of a pair's local memory that hold the state of a skein, as offsets with lengths (R88 has the twin copy that state
and does not say where a program keeps it). -/
opaque skeinState : (skein : Nat) → List (Nat × Nat)

/-- The four key hashes fused at manufacture (R414). -/
opaque fusedKey : Nat → List (BitVec 8)

/-- The golden row of an image body for a silicon revision, if it has one: the full values and the quick values by
index (R415, R417; the manual does not say where in the body the table lies). -/
opaque golden : (body : List (BitVec 8)) → (revision : Nat) → Option (List (BitVec 64) × List (BitVec 64))

end Sys2Proof.Config
end

