-- ==== Sys2Proof/Machine/Bits.lean ====
section
/-! DEFINITION. Bit fields, sign extension and byte order (R9, R10), on natural numbers and words. -/

namespace Sys2Proof.Machine

/-- Bits `hi` down to `lo` of `n` (R9). -/
def bits (n hi lo : Nat) : Nat := n / 2 ^ lo % 2 ^ (hi + 1 - lo)

/-- Bit `i` of `n`. -/
def bit (n i : Nat) : Bool := n / 2 ^ i % 2 == 1

/-- `n` with bits `hi` down to `lo` replaced by the low bits of `v`. -/
def putBits (n hi lo v : Nat) : Nat :=
  n / 2 ^ (hi + 1) * 2 ^ (hi + 1) + v % 2 ^ (hi + 1 - lo) * 2 ^ lo + n % 2 ^ lo

/-- `n` with bit `i` set or cleared. -/
def putBit (n i : Nat) (b : Bool) : Nat := putBits n i i b.toNat

/-- 0 or 1. -/
def b2n (b : Bool) : Nat := if b then 1 else 0

/-- The mask of bits `hi` down to `lo`. -/
def maskBits (hi lo : Nat) : Nat := (2 ^ (hi + 1 - lo) - 1) * 2 ^ lo

/-- The `n` bytes of `v`, little-endian (R10). -/
def leBytes : Nat → Nat → List Byte
  | 0, _ => []
  | n + 1, v => BitVec.ofNat 8 v :: leBytes n (v / 256)

/-- The value of little-endian bytes (R10). -/
def ofLe : List Byte → Nat
  | [] => 0
  | b :: r => b.toNat + 256 * ofLe r

/-- The `n` bytes of `v`, most significant first (network order, R10). -/
def beBytes (n v : Nat) : List Byte := (leBytes n v).reverse

/-- The value of bytes in network order. -/
def ofBe (l : List Byte) : Nat := l.foldl (fun a b => a * 256 + b.toNat) 0

/-- `x` limited to `[-2^(w-1), 2^(w-1)-1]`. -/
def satSigned (w : Nat) (x : Int) : Int :=
  max (-(2 ^ (w - 1) : Nat)) (min x ((2 ^ (w - 1) : Nat) - 1))

/-- Whether `x` fits `w` bits two's complement. -/
def fitsSigned (w : Nat) (x : Int) : Bool :=
  decide (-((2 ^ (w - 1) : Nat) : Int) ≤ x ∧ x < ((2 ^ (w - 1) : Nat) : Int))

/-- The 64-bit word of the low 32 bits of `n`, sign-extended. -/
def sext32 (n : Nat) : Word := (BitVec.ofNat 32 n).signExtend 64

/-- Element `i` of a list, or the given value past its end. -/
def nth {α : Type} (l : List α) (i : Nat) (x : α) : α := l.getD i x

/-- The numbers `0, …, n-1`. -/
def upto (n : Nat) : List Nat := List.range n

end Sys2Proof.Machine
end

