-- ==== Sys2Proof/Machine/Regs.lean ====
section
/-! DEFINITION. The register pages: where every block lies (R40), the names and bit places of every field
of the register maps, which bits software writes (R16 to R19), and every reset value (R17).
Offsets count bytes from 0x00_4000_0000. -/

namespace Sys2Proof.Machine

/-- A register field: byte offset of its word in the register range, and its bits. -/
structure Fld where
  off : Nat
  hi : Nat
  lo : Nat
  deriving DecidableEq, Repr

/-- One register, or an array of them: offset of the first, the counts and strides of the array,
the bits software writes, the write-1-to-clear bits, the bits any write clears, and the reset value. -/
structure RegRow where
  off : Nat
  dims : List (Nat × Nat)
  rw : Nat
  w1c : Nat
  clr : Nat
  reset : Nat
  deriving DecidableEq, Repr

/-- Type code, instance number, pages and base offset of a block instance (R40). -/
def blkInfo : Blk → Nat × Nat × Nat × Nat
  | .mod => (0x0001, 0, 1, 0)
  | .gw => (0x0002, 0, 1, 0x1000)
  | .hue h => (0x0003, h.val, 1, 0x10000 + h.val * 0x1000)
  | .evc => (0x0010, 0, 8, 0x20000)
  | .spindle => (0x0011, 0, 16, 0x30000)
  | .bobbin => (0x0012, 0, 4, 0x40000)
  | .cht => (0x0013, 0, 4, 0x50000)
  | .seq => (0x0014, 0, 8, 0x60000)
  | .log => (0x0015, 0, 1, 0x70000)
  | .ply p => (0x0020, p.val, 1, 0x100000 + p.val * 0x1000)
  | .strm i => (0x0030, i.val, 8, 0x200000 + i.val * 0x8000)
  | .ptp => (0x0031, 0, 1, 0x210000)
  | .tdm k => (0x0032, k.val, 1, 0x220000 + k.val * 0x1000)
  | .sup => (0x0040, 0, 16, 0x300000)
  | .tag => (0x0041, 0, 4, 0x310000)
  | .wear => (0x0042, 0, 2, 0x320000)
  | .twin => (0x0050, 0, 2, 0x400000)
  | .bist => (0x0051, 0, 2, 0x410000)
  | .cont => (0x0060, 0, 1, 0x500000)
  | .rel => (0x0061, 0, 1, 0x510000)
  | .stor => (0x0062, 0, 2, 0x520000)

/-- The base offset of a block's pages. -/
def blkBase (b : Blk) : Nat := (blkInfo b).2.2.2

/-- The low byte of the type code, as log record types carry it (R274). -/
def blkCode (b : Blk) : Nat := (blkInfo b).1

/-- The block whose pages hold register offset `a`, if any (R40). -/
def blkAt (a : Nat) : Option Blk :=
  if a < 0x1000 then some .mod
  else if a < 0x2000 then some .gw
  else if a < 0x10000 then none
  else if a < 0x20000 then some (.hue (Fin.ofNat 16 ((a - 0x10000) / 0x1000)))
  else if a < 0x28000 then some .evc
  else if a < 0x30000 then none
  else if a < 0x40000 then some .spindle
  else if a < 0x44000 then some .bobbin
  else if a < 0x50000 then none
  else if a < 0x54000 then some .cht
  else if a < 0x60000 then none
  else if a < 0x68000 then some .seq
  else if a < 0x70000 then none
  else if a < 0x71000 then some .log
  else if a < 0x100000 then none
  else if a < 0x10C000 then some (.ply (Fin.ofNat 12 ((a - 0x100000) / 0x1000)))
  else if a < 0x200000 then none
  else if a < 0x210000 then some (.strm (Fin.ofNat 2 ((a - 0x200000) / 0x8000)))
  else if a < 0x211000 then some .ptp
  else if a < 0x220000 then none
  else if a < 0x22C000 then some (.tdm (Fin.ofNat 12 ((a - 0x220000) / 0x1000)))
  else if a < 0x300000 then none
  else if a < 0x310000 then some .sup
  else if a < 0x314000 then some .tag
  else if a < 0x320000 then none
  else if a < 0x322000 then some .wear
  else if a < 0x400000 then none
  else if a < 0x402000 then some .twin
  else if a < 0x410000 then none
  else if a < 0x412000 then some .bist
  else if a < 0x500000 then none
  else if a < 0x501000 then some .cont
  else if a < 0x510000 then none
  else if a < 0x511000 then some .rel
  else if a < 0x520000 then none
  else if a < 0x522000 then some .stor
  else none

/-- The offset an access reaches: the header of a later page aliases the first page's (R41). -/
def canonOff (b : Blk) (a : Nat) : Nat :=
  if a % 0x1000 < 0x40 then blkBase b + a % 0x1000 else a

/-- Where staging slot `h` of the CHT begins (R80). -/
def chtSlot (h : Nat) : Nat := 0x52040 + h / 8 * 0x1000 + h % 8 * 0x100

/-- Where the configuration of event source `s` begins (R212). -/
def evcSrc (s : Nat) : Nat := 0x21040 + s / 256 * 0x1000 + s % 256 * 8

/-- Where the block of Spindle channel `c` begins (R240). -/
def spCh (c : Nat) : Nat := 0x32040 + c / 16 * 0x1000 + c % 16 * 0x80

/-- Where announcement slot `a` is shown (R272). -/
def seqSlot (a : Nat) : Nat := 0x61040 + a / 128 * 0x1000 + a % 128 * 16

/-- Where RX stream `s` lies in the stream table (R295). -/
def strmRx (s : Nat) : Nat := 0x202040 + s / 64 * 0x1000 + s % 64 * 32

/-- Where TX stream `t` lies in the stream table (R295). -/
def strmTx (t : Nat) : Nat := 0x204040 + t / 48 * 0x1000 + t % 48 * 32

/-- R43: `CTRL.EN` of block `b`. -/
def hdrEn (b : Blk) : Fld := ⟨blkBase b + 0x8, 0, 0⟩
/-- R43: `CTRL.SOFT_RST` of block `b`. -/
def hdrSoftRst (b : Blk) : Fld := ⟨blkBase b + 0x8, 1, 1⟩
/-- R43: `CTRL.HALT_ON_ERR` of block `b`. -/
def hdrHalt (b : Blk) : Fld := ⟨blkBase b + 0x8, 2, 2⟩
/-- R43: `STATUS.ACTIVE` of block `b`. -/
def hdrActive (b : Blk) : Fld := ⟨blkBase b + 0xC, 0, 0⟩
/-- R43: `STATUS.QUIESCING` of block `b`. -/
def hdrQuiescing (b : Blk) : Fld := ⟨blkBase b + 0xC, 1, 1⟩
/-- R43: `STATUS.PEND_EN` of block `b`. -/
def hdrPendEn (b : Blk) : Fld := ⟨blkBase b + 0xC, 2, 2⟩
/-- R43: `STATUS.ERROR` of block `b`. -/
def hdrError (b : Blk) : Fld := ⟨blkBase b + 0xC, 3, 3⟩
/-- R43: `EVT_RAW` of block `b`. -/
def hdrEvtRaw (b : Blk) : Fld := ⟨blkBase b + 0x10, 31, 0⟩
/-- R43: `EVT_FLAG` of block `b`. -/
def hdrEvtFlag (b : Blk) : Fld := ⟨blkBase b + 0x14, 31, 0⟩
/-- R43: `EVT_EN` of block `b`. -/
def hdrEvtEn (b : Blk) : Fld := ⟨blkBase b + 0x18, 31, 0⟩
/-- R43: `ERR_CODE.CODE` of block `b`. -/
def hdrCode (b : Blk) : Fld := ⟨blkBase b + 0x1C, 15, 0⟩
/-- R43: `ERR_CODE.DETAIL` of block `b`. -/
def hdrDetail (b : Blk) : Fld := ⟨blkBase b + 0x1C, 31, 16⟩
/-- R43: `ERR_COUNT` of block `b`. -/
def hdrErrCount (b : Blk) : Fld := ⟨blkBase b + 0x20, 31, 0⟩
/-- R43: `ACCESS_ERR_COUNT` of block `b`. -/
def hdrAccessErr (b : Blk) : Fld := ⟨blkBase b + 0x24, 31, 0⟩
/-- R43: `OWNER_HUE` of block `b`. -/
def hdrOwner (b : Blk) : Fld := ⟨blkBase b + 0x28, 3, 0⟩
/-- R279: LINE_HUE of bobbin event line `l`. -/
def bobLineHue (l : Nat) : Fld := ⟨0x41040 + 4 * (l / 8), 4 * (l % 8) + 3, 4 * (l % 8)⟩
/-- R341: HEAR_b, the hearing threshold of band `b`. -/
def supHear (b : Nat) : Fld := ⟨0x301040 + 4 * b, 15, 0⟩
/-- R306: RX_OK of stream `s` at network instance `i`. -/
def strmRxOk (i s : Nat) : Fld := ⟨0x201040 + i * 0x8000 + 8 * s, 31, 0⟩
/-- R306: RX_MISS of stream `s` at network instance `i`. -/
def strmRxMiss (i s : Nat) : Fld := ⟨0x201044 + i * 0x8000 + 8 * s, 31, 0⟩
/-- R42: MOD TEMP_E, RO. -/
def modTempE : Fld := ⟨0 + 0x4, 0, 0⟩
/-- R42: MOD RATE_48, RO. -/
def modRate48 : Fld := ⟨0 + 0x4, 1, 1⟩
/-- R42: MOD SLOT_B, RO. -/
def modSlotB : Fld := ⟨0 + 0x4, 2, 2⟩
/-- R42: MOD PAIRS, RO. -/
def modPairs : Fld := ⟨0 + 0x4, 7, 4⟩
/-- R42: MOD SILICON_REV, RO. -/
def modSiliconRev : Fld := ⟨0 + 0x4, 15, 8⟩
/-- R42: MOD SERIAL_LO, RO. -/
def modSerialLo : Fld := ⟨0 + 0x40, 31, 0⟩
/-- R42: MOD SERIAL_HI, RO. -/
def modSerialHi : Fld := ⟨0 + 0x44, 31, 0⟩
/-- R42: MOD FRAME_LO, RO. -/
def modFrameLo : Fld := ⟨0 + 0x48, 31, 0⟩
/-- R42: MOD FRAME_HI, RO. -/
def modFrameHi : Fld := ⟨0 + 0x4C, 31, 0⟩
/-- R42: MOD PTP_NS_LO, RO. -/
def modPtpNsLo : Fld := ⟨0 + 0x50, 31, 0⟩
/-- R42: MOD PTP_NS_HI, RO. -/
def modPtpNsHi : Fld := ⟨0 + 0x54, 31, 0⟩
/-- R42: MOD UNMAPPED_COUNT, RWH. -/
def modUnmappedCount : Fld := ⟨0 + 0x58, 31, 0⟩
/-- R68: GW HANK_PORT, RW. -/
def gwHankPort : Fld := ⟨0x1000 + 0x40, 15, 0⟩
/-- R68: GW PCIE_HUE, RW. -/
def gwPcieHue : Fld := ⟨0x1000 + 0x44, 3, 0⟩
/-- R68: GW KEY_SEL, RW. -/
def gwKeySel : Fld := ⟨0x1000 + 0x48, 3, 0⟩
/-- R68: GW KEY_DATA, WO. -/
def gwKeyData (j : Nat) : Fld := ⟨0x1000 + 0x4C + 4 * j, 31, 0⟩
/-- R68: GW COMMIT, W1S. -/
def gwCommit : Fld := ⟨0x1000 + 0x6C, 0, 0⟩
/-- R68: GW REVOKE, W1S. -/
def gwRevoke : Fld := ⟨0x1000 + 0x6C, 1, 1⟩
/-- R68: GW KEEP_SEQ, W1S. -/
def gwKeepSeq : Fld := ⟨0x1000 + 0x6C, 2, 2⟩
/-- R68: GW KEY_VALID, RO. -/
def gwKeyValid : Fld := ⟨0x1000 + 0x70, 15, 0⟩
/-- R68: GW AUTH_FAIL_COUNT, RWH. -/
def gwAuthFailCount : Fld := ⟨0x1000 + 0x74, 31, 0⟩
/-- R68: GW FORMAT_ERR_COUNT, RWH. -/
def gwFormatErrCount : Fld := ⟨0x1000 + 0x78, 31, 0⟩
/-- R68: GW STALE_COUNT, RWH. -/
def gwStaleCount : Fld := ⟨0x1000 + 0x7C, 31, 0⟩
/-- R68: GW LAST_SEQ_LO, RO. -/
def gwLastSeqLo : Fld := ⟨0x1000 + 0x80, 31, 0⟩
/-- R68: GW LAST_SEQ_HI, RO. -/
def gwLastSeqHi : Fld := ⟨0x1000 + 0x84, 31, 0⟩
/-- R68: GW BUSY_COUNT, RWH. -/
def gwBusyCount : Fld := ⟨0x1000 + 0x88, 31, 0⟩
/-- R80: SLOT DATA, RW. -/
def slotData (h : Nat) (j : Nat) : Fld := ⟨chtSlot h + 0x0 + 4 * j, 31, 0⟩
/-- R80: SLOT INDEX, RW. -/
def slotIndex (h : Nat) : Fld := ⟨chtSlot h + 0x80, 8, 0⟩
/-- R80: SLOT COMMIT, W1S. -/
def slotCommit (h : Nat) : Fld := ⟨chtSlot h + 0x84, 0, 0⟩
/-- R80: SLOT BUSY, RO. -/
def slotBusy (h : Nat) : Fld := ⟨chtSlot h + 0x88, 0, 0⟩
/-- R80: SLOT DONE, RO. -/
def slotDone (h : Nat) : Fld := ⟨chtSlot h + 0x88, 1, 1⟩
/-- R80: SLOT REFUSED, RO. -/
def slotRefused (h : Nat) : Fld := ⟨chtSlot h + 0x88, 2, 2⟩
/-- R80: SLOT REASON, RO. -/
def slotReason (h : Nat) : Fld := ⟨chtSlot h + 0x88, 15, 8⟩
/-- R80: SLOT FRAME_LO, RO. -/
def slotFrameLo (h : Nat) : Fld := ⟨chtSlot h + 0x8C, 31, 0⟩
/-- R80: SLOT FRAME_HI, RO. -/
def slotFrameHi (h : Nat) : Fld := ⟨chtSlot h + 0x90, 31, 0⟩
/-- R82: CHT NEXT_PROG, RW. -/
def chtNextProg (n : Nat) : Fld := ⟨0x51000 + 0x40 + 16 * n, 31, 0⟩
/-- R82: CHT NEXT_MASK_LO, RW. -/
def chtNextMaskLo (n : Nat) : Fld := ⟨0x51000 + 0x48 + 16 * n, 31, 0⟩
/-- R82: CHT NEXT_MASK_HI, RW. -/
def chtNextMaskHi (n : Nat) : Fld := ⟨0x51000 + 0x4C + 16 * n, 31, 0⟩
/-- R82: CHT ACT_PROG, RO. -/
def chtActProg (n : Nat) : Fld := ⟨0x51000 + 0x140 + 16 * n, 31, 0⟩
/-- R82: CHT ACT_MASK_LO, RO. -/
def chtActMaskLo (n : Nat) : Fld := ⟨0x51000 + 0x148 + 16 * n, 31, 0⟩
/-- R82: CHT ACT_MASK_HI, RO. -/
def chtActMaskHi (n : Nat) : Fld := ⟨0x51000 + 0x14C + 16 * n, 31, 0⟩
/-- R82: CHT SRC, RW. -/
def chtSrc (s : Nat) : Fld := ⟨0x51000 + 0x240 + 4 * s, 1, 0⟩
/-- R82: CHT SPINDLE_CH, RW. -/
def chtSpindleCh (s : Nat) : Fld := ⟨0x51000 + 0x240 + 4 * s, 14, 8⟩
/-- R94: CHT TABLE_BASE, RW. -/
def chtTableBase : Fld := ⟨0x50000 + 0x40, 23, 0⟩
/-- R94: CHT INVAL_INDEX, WO. -/
def chtInvalIndex : Fld := ⟨0x50000 + 0x44, 8, 0⟩
/-- R94: CHT INVAL_ALL, WO. -/
def chtInvalAll : Fld := ⟨0x50000 + 0x44, 16, 16⟩
/-- R94: CHT PEND_COUNT, RO. -/
def chtPendCount : Fld := ⟨0x50000 + 0x48, 9, 0⟩
/-- R94: CHT HIT_COUNT, RWH. -/
def chtHitCount : Fld := ⟨0x50000 + 0x4C, 31, 0⟩
/-- R94: CHT MISS_COUNT, RWH. -/
def chtMissCount : Fld := ⟨0x50000 + 0x50, 31, 0⟩
/-- R94: CHT TORN_COUNT, RWH. -/
def chtTornCount : Fld := ⟨0x50000 + 0x54, 31, 0⟩
/-- R94: CHT ARM, W1S. -/
def chtArm : Fld := ⟨0x50000 + 0x58, 0, 0⟩
/-- R94: CHT CANCEL, W1S. -/
def chtCancel : Fld := ⟨0x50000 + 0x58, 1, 1⟩
/-- R94: CHT ARMED, RO. -/
def chtArmed : Fld := ⟨0x50000 + 0x58, 2, 2⟩
/-- R94: CHT POSTPONED, RO. -/
def chtPostponed : Fld := ⟨0x50000 + 0x58, 3, 3⟩
/-- R94: CHT BOTH, RW. -/
def chtBoth : Fld := ⟨0x50000 + 0x58, 4, 4⟩
/-- R94: CHT SWITCH_FRAME_LO, RW. -/
def chtSwitchFrameLo : Fld := ⟨0x50000 + 0x5C, 31, 0⟩
/-- R94: CHT SWITCH_FRAME_HI, RW. -/
def chtSwitchFrameHi : Fld := ⟨0x50000 + 0x60, 31, 0⟩
/-- R94: CHT APPLIED_FRAME_LO, RO. -/
def chtAppliedFrameLo : Fld := ⟨0x50000 + 0x64, 31, 0⟩
/-- R94: CHT APPLIED_FRAME_HI, RO. -/
def chtAppliedFrameHi : Fld := ⟨0x50000 + 0x68, 31, 0⟩
/-- R94: CHT DONE_EXPECT, RO. -/
def chtDoneExpect : Fld := ⟨0x50000 + 0x6C, 11, 0⟩
/-- R94: CHT DONE_STATUS, RO. -/
def chtDoneStatus : Fld := ⟨0x50000 + 0x70, 11, 0⟩
/-- R94: CHT OVERRUN_COUNT, RWH. -/
def chtOverrunCount : Fld := ⟨0x50000 + 0x74, 31, 0⟩
/-- R94: CHT LATE_CANCEL_COUNT, RWH. -/
def chtLateCancelCount : Fld := ⟨0x50000 + 0x78, 31, 0⟩
/-- R94: CHT DONE_CP, WO. -/
def chtDoneCp (n : Nat) : Fld := ⟨0x50000 + 0x80 + 4 * n, 31, 0⟩
/-- R212: EVC COMPLETE_CP, WO. -/
def evcCompleteCp (n : Nat) : Fld := ⟨0x20000 + 0x40 + 4 * n, 9, 0⟩
/-- R212: EVC SPURIOUS_COMPLETE, RWH. -/
def evcSpuriousComplete : Fld := ⟨0x20000 + 0x70, 31, 0⟩
/-- R212: EVC MERGED_COUNT, RWH. -/
def evcMergedCount : Fld := ⟨0x20000 + 0x74, 31, 0⟩
/-- R212: EVC LAST_SPURIOUS.SRC, RO. -/
def evcLastSpuriousSrc : Fld := ⟨0x20000 + 0x78, 9, 0⟩
/-- R212: EVC LAST_SPURIOUS.CORE, RO. -/
def evcLastSpuriousCore : Fld := ⟨0x20000 + 0x78, 19, 16⟩
/-- R212: EVC CFG.LEVEL, RW. -/
def evcCfgLevel (s : Nat) : Fld := ⟨evcSrc s + 0, 3, 0⟩
/-- R212: EVC CFG.TRIG, RW. -/
def evcCfgTrig (s : Nat) : Fld := ⟨evcSrc s + 0, 5, 4⟩
/-- R212: EVC CFG.FILTER, RW. -/
def evcCfgFilter (s : Nat) : Fld := ⟨evcSrc s + 0, 15, 8⟩
/-- R212: EVC CFG.CORE_EN, RW. -/
def evcCfgCoreEn (s : Nat) : Fld := ⟨evcSrc s + 0, 27, 16⟩
/-- R212: EVC CFG.RR, RWH. -/
def evcCfgRr (s : Nat) : Fld := ⟨evcSrc s + 0, 31, 28⟩
/-- R212: EVC VECTOR, RW. -/
def evcVector (s : Nat) : Fld := ⟨evcSrc s + 4, 31, 0⟩
/-- R212: EVC RAW, RO. -/
def evcRaw (g : Nat) : Fld := ⟨0x25000 + 0x40 + 16 * g, 31, 0⟩
/-- R212: EVC PEND, W1C. -/
def evcPend (g : Nat) : Fld := ⟨0x25000 + 0x44 + 16 * g, 31, 0⟩
/-- R212: EVC SWSET, W1S. -/
def evcSwset (g : Nat) : Fld := ⟨0x25000 + 0x48 + 16 * g, 31, 0⟩
/-- R212: EVC ACTIVE, RO. -/
def evcActive (g : Nat) : Fld := ⟨0x25000 + 0x4C + 16 * g, 31, 0⟩
/-- R212: EVC ACT.SRC, RO. -/
def evcActSrc (n : Nat) (k : Nat) : Fld := ⟨0x26000 + 0x40 + 64 * n + 4 * k, 9, 0⟩
/-- R212: EVC ACT.VALID, RO. -/
def evcActValid (n : Nat) (k : Nat) : Fld := ⟨0x26000 + 0x40 + 64 * n + 4 * k, 15, 15⟩
/-- R212: EVC HOLDOFF, RW. -/
def evcHoldoff (g : Nat) : Fld := ⟨0x26000 + 0x400 + 8 * g, 15, 0⟩
/-- R212: EVC HOLD_REMAIN, RO. -/
def evcHoldRemain (g : Nat) : Fld := ⟨0x26000 + 0x404 + 8 * g, 15, 0⟩
/-- R212: EVC THRESH, RW. -/
def evcThresh (n : Nat) : Fld := ⟨0x27000 + 0x40 + 16 * n, 3, 0⟩
/-- R212: EVC STATE.LEVEL, RO. -/
def evcStateLevel (n : Nat) : Fld := ⟨0x27000 + 0x44 + 16 * n, 3, 0⟩
/-- R212: EVC STATE.WAITING, RO. -/
def evcStateWaiting (n : Nat) : Fld := ⟨0x27000 + 0x44 + 16 * n, 4, 4⟩
/-- R212: EVC STATE.PRESENTED, RO. -/
def evcStatePresented (n : Nat) : Fld := ⟨0x27000 + 0x44 + 16 * n, 5, 5⟩
/-- R212: EVC STATE.UNAVAILABLE, RO. -/
def evcStateUnavailable (n : Nat) : Fld := ⟨0x27000 + 0x44 + 16 * n, 6, 6⟩
/-- R212: EVC STATE.SRC, RO. -/
def evcStateSrc (n : Nat) : Fld := ⟨0x27000 + 0x44 + 16 * n, 17, 8⟩
/-- R212: EVC DELIVERED, RWH. -/
def evcDelivered (n : Nat) : Fld := ⟨0x27000 + 0x48 + 16 * n, 31, 0⟩
/-- R212: EVC WAIT_CYCLES, RWH. -/
def evcWaitCycles (n : Nat) : Fld := ⟨0x27000 + 0x4C + 16 * n, 31, 0⟩
/-- R212: EVC STILL_GROUP, RW. -/
def evcStillGroup : Fld := ⟨0x27000 + 0x100, 11, 0⟩
/-- R212: EVC STILL_CORE, RW. -/
def evcStillCore : Fld := ⟨0x27000 + 0x100, 19, 16⟩
/-- R212: EVC STILL_LIMIT, RW. -/
def evcStillLimit : Fld := ⟨0x27000 + 0x104, 31, 0⟩
/-- R212: EVC STILL_COUNT, RO. -/
def evcStillCount : Fld := ⟨0x27000 + 0x108, 31, 0⟩
/-- R212: EVC STILL_FIRED, RWH. -/
def evcStillFired : Fld := ⟨0x27000 + 0x10C, 31, 0⟩
/-- R212: EVC SLEEP_REQ, W1S. -/
def evcSleepReq : Fld := ⟨0x27000 + 0x140, 0, 0⟩
/-- R212: EVC SLEEP_CANCEL, W1S. -/
def evcSleepCancel : Fld := ⟨0x27000 + 0x140, 1, 1⟩
/-- R212: EVC SLEEP_PEND, RO. -/
def evcSleepPend : Fld := ⟨0x27000 + 0x140, 2, 2⟩
/-- R212: EVC AON_FILTER, RW. -/
def evcAonFilter : Fld := ⟨0x27000 + 0x144, 7, 0⟩
/-- R212: EVC WAKE_SRC.ENTRY, RO. -/
def evcWakeSrcEntry : Fld := ⟨0x27000 + 0x148, 4, 0⟩
/-- R212: EVC WAKE_SRC.VALID, RO. -/
def evcWakeSrcValid : Fld := ⟨0x27000 + 0x148, 5, 5⟩
/-- R212: EVC AON_SEL.SRC, RW. -/
def evcAonSelSrc (i : Nat) : Fld := ⟨0x27000 + 0x180 + 4 * i, 9, 0⟩
/-- R212: EVC AON_SEL.VALID, RW. -/
def evcAonSelValid (i : Nat) : Fld := ⟨0x27000 + 0x180 + 4 * i, 15, 15⟩
/-- R240: SP ELEM_LIMIT, RW. -/
def spElemLimit : Fld := ⟨0x30000 + 0x40, 15, 0⟩
/-- R240: SP RD_OUTSTANDING, RO. -/
def spRdOutstanding : Fld := ⟨0x30000 + 0x44, 6, 0⟩
/-- R240: SP WR_OUTSTANDING, RO. -/
def spWrOutstanding : Fld := ⟨0x30000 + 0x44, 14, 8⟩
/-- R240: SP BUF_USED, RO. -/
def spBufUsed : Fld := ⟨0x30000 + 0x48, 8, 0⟩
/-- R240: SP TRIG_LOST_COUNT, RWH. -/
def spTrigLostCount : Fld := ⟨0x30000 + 0x4C, 31, 0⟩
/-- R240: SP LATE_RESP_COUNT, RWH. -/
def spLateRespCount : Fld := ⟨0x30000 + 0x50, 31, 0⟩
/-- R240: SP ACTIVE, RO. -/
def spActive (j : Nat) : Fld := ⟨0x30000 + 0x54 + 4 * j, 31, 0⟩
/-- R240: SP STOPPED, RO. -/
def spStopped (j : Nat) : Fld := ⟨0x30000 + 0x64 + 4 * j, 31, 0⟩
/-- R240: SPTIMER EN, RW. -/
def sptimerEn (t : Nat) : Fld := ⟨0x31000 + 0x40 + 16 * t, 0, 0⟩
/-- R240: SPTIMER UNIT, RW. -/
def sptimerUnit (t : Nat) : Fld := ⟨0x31000 + 0x40 + 16 * t, 1, 1⟩
/-- R240: SPTIMER PERIOD, RW. -/
def sptimerPeriod (t : Nat) : Fld := ⟨0x31000 + 0x44 + 16 * t, 15, 0⟩
/-- R240: SPTIMER PHASE, RW. -/
def sptimerPhase (t : Nat) : Fld := ⟨0x31000 + 0x44 + 16 * t, 31, 16⟩
/-- R240: SPTIMER OFFSET, RW. -/
def sptimerOffset (t : Nat) : Fld := ⟨0x31000 + 0x48 + 16 * t, 16, 0⟩
/-- R240: CH CH_CTRL.EN, RWH. -/
def chChCtrlEn (c : Nat) : Fld := ⟨spCh c + 0x0, 0, 0⟩
/-- R240: CH CH_CTRL.ARM, W1S. -/
def chChCtrlArm (c : Nat) : Fld := ⟨spCh c + 0x0, 1, 1⟩
/-- R240: CH CH_CTRL.DISARM, W1S. -/
def chChCtrlDisarm (c : Nat) : Fld := ⟨spCh c + 0x0, 2, 2⟩
/-- R240: CH CH_CTRL.SWTRIG, W1S. -/
def chChCtrlSwtrig (c : Nat) : Fld := ⟨spCh c + 0x0, 3, 3⟩
/-- R240: CH CH_STATUS.ACTIVE, RO. -/
def chChStatusActive (c : Nat) : Fld := ⟨spCh c + 0x4, 0, 0⟩
/-- R240: CH CH_STATUS.QUIESCING, RO. -/
def chChStatusQuiescing (c : Nat) : Fld := ⟨spCh c + 0x4, 1, 1⟩
/-- R240: CH CH_STATUS.PEND_EN, RO. -/
def chChStatusPendEn (c : Nat) : Fld := ⟨spCh c + 0x4, 2, 2⟩
/-- R240: CH CH_STATUS.ARMED, RO. -/
def chChStatusArmed (c : Nat) : Fld := ⟨spCh c + 0x4, 3, 3⟩
/-- R240: CH CH_STATUS.WAIT_TRIG, RO. -/
def chChStatusWaitTrig (c : Nat) : Fld := ⟨spCh c + 0x4, 4, 4⟩
/-- R240: CH CH_STATUS.LATCHED, RO. -/
def chChStatusLatched (c : Nat) : Fld := ⟨spCh c + 0x4, 5, 5⟩
/-- R240: CH CH_STATUS.STOPPED, RO. -/
def chChStatusStopped (c : Nat) : Fld := ⟨spCh c + 0x4, 6, 6⟩
/-- R240: CH CH_STATUS.CODE, RO. -/
def chChStatusCode (c : Nat) : Fld := ⟨spCh c + 0x4, 15, 8⟩
/-- R240: CH CH_EVT, W1C. -/
def chChEvt (c : Nat) : Fld := ⟨spCh c + 0x8, 3, 0⟩
/-- R240: CH CH_EVT_EN, RW. -/
def chChEvtEn (c : Nat) : Fld := ⟨spCh c + 0xC, 3, 0⟩
/-- R240: CH CH_HUE, RW. -/
def chChHue (c : Nat) : Fld := ⟨spCh c + 0x10, 3, 0⟩
/-- R240: CH ELEM_INDEX, RO. -/
def chElemIndex (c : Nat) : Fld := ⟨spCh c + 0x14, 23, 0⟩
/-- R240: CH BYTES_DONE_LO, RO. -/
def chBytesDoneLo (c : Nat) : Fld := ⟨spCh c + 0x18, 31, 0⟩
/-- R240: CH BYTES_DONE_HI, RO. -/
def chBytesDoneHi (c : Nat) : Fld := ⟨spCh c + 0x1C, 7, 0⟩
/-- R240: CH RESTART_LO, WO. -/
def chRestartLo (c : Nat) : Fld := ⟨spCh c + 0x20, 31, 4⟩
/-- R240: CH RESTART_HI, WO. -/
def chRestartHi (c : Nat) : Fld := ⟨spCh c + 0x24, 7, 0⟩
/-- R240: CH SWAP_COUNT, RWH. -/
def chSwapCount (c : Nat) : Fld := ⟨spCh c + 0x28, 31, 0⟩
/-- R240: CH ACT_SRC_LO, RO. -/
def chActSrcLo (c : Nat) : Fld := ⟨spCh c + 0x30, 31, 0⟩
/-- R240: CH ACT_SRC_HI, RO. -/
def chActSrcHi (c : Nat) : Fld := ⟨spCh c + 0x34, 7, 0⟩
/-- R240: CH ACT_DST_LO, RO. -/
def chActDstLo (c : Nat) : Fld := ⟨spCh c + 0x38, 31, 0⟩
/-- R240: CH ACT_DST_HI, RO. -/
def chActDstHi (c : Nat) : Fld := ⟨spCh c + 0x3C, 7, 0⟩
/-- R240: CH ACT_LEN, RO. -/
def chActLen (c : Nat) : Fld := ⟨spCh c + 0x40, 31, 0⟩
/-- R240: CH ACT_CFG, RO. -/
def chActCfg (c : Nat) : Fld := ⟨spCh c + 0x44, 31, 0⟩
/-- R240: CH ACT_LIST_LO, RO. -/
def chActListLo (c : Nat) : Fld := ⟨spCh c + 0x48, 31, 4⟩
/-- R240: CH ACT_LIST_HI, RO. -/
def chActListHi (c : Nat) : Fld := ⟨spCh c + 0x4C, 7, 0⟩
/-- R240: CH SH_SRC_LO, RW. -/
def chShSrcLo (c : Nat) : Fld := ⟨spCh c + 0x50, 31, 0⟩
/-- R240: CH SH_SRC_HI, RW. -/
def chShSrcHi (c : Nat) : Fld := ⟨spCh c + 0x54, 7, 0⟩
/-- R240: CH SH_DST_LO, RW. -/
def chShDstLo (c : Nat) : Fld := ⟨spCh c + 0x58, 31, 0⟩
/-- R240: CH SH_DST_HI, RW. -/
def chShDstHi (c : Nat) : Fld := ⟨spCh c + 0x5C, 7, 0⟩
/-- R240: CH SH_LEN, RW. -/
def chShLen (c : Nat) : Fld := ⟨spCh c + 0x60, 31, 0⟩
/-- R240: CH SH_CFG.SG, RW. -/
def chShCfgSg (c : Nat) : Fld := ⟨spCh c + 0x64, 1, 0⟩
/-- R240: CH SH_CFG.TMODE, RW. -/
def chShCfgTmode (c : Nat) : Fld := ⟨spCh c + 0x64, 3, 2⟩
/-- R240: CH SH_CFG.TRIG_SEL, RW. -/
def chShCfgTrigSel (c : Nat) : Fld := ⟨spCh c + 0x64, 11, 4⟩
/-- R240: CH SH_CFG.PRIO, RW. -/
def chShCfgPrio (c : Nat) : Fld := ⟨spCh c + 0x64, 13, 12⟩
/-- R240: CH SH_CFG.REPEAT, RW. -/
def chShCfgRepeat (c : Nat) : Fld := ⟨spCh c + 0x64, 14, 14⟩
/-- R240: CH SH_CFG.PULSE_HALF, RW. -/
def chShCfgPulseHalf (c : Nat) : Fld := ⟨spCh c + 0x64, 15, 15⟩
/-- R240: CH SH_CFG.PULSE_FULL, RW. -/
def chShCfgPulseFull (c : Nat) : Fld := ⟨spCh c + 0x64, 16, 16⟩
/-- R240: CH SH_LIST_LO, RW. -/
def chShListLo (c : Nat) : Fld := ⟨spCh c + 0x68, 31, 4⟩
/-- R240: CH SH_LIST_HI, RW. -/
def chShListHi (c : Nat) : Fld := ⟨spCh c + 0x6C, 7, 0⟩
/-- R254: HUE QUOTA_BOBBINS, RW (H0). -/
def hueQuotaBobbins (h : Nat) : Fld := ⟨0x10000 + h * 0x1000 + 0x40, 15, 0⟩
/-- R254: HUE QUOTA_KIB, RW (H0). -/
def hueQuotaKib (h : Nat) : Fld := ⟨0x10000 + h * 0x1000 + 0x44, 23, 0⟩
/-- R254: HUE USED_BOBBINS, RO. -/
def hueUsedBobbins (h : Nat) : Fld := ⟨0x10000 + h * 0x1000 + 0x48, 15, 0⟩
/-- R254: HUE USED_KIB, RO. -/
def hueUsedKib (h : Nat) : Fld := ⟨0x10000 + h * 0x1000 + 0x4C, 23, 0⟩
/-- R254: HUE ZONE_PERM, RW (H0). -/
def hueZonePerm (h : Nat) (j : Nat) : Fld := ⟨0x10000 + h * 0x1000 + 0x50 + 4 * j, 31, 0⟩
/-- R254: HUE PRIO_MAX, RW (H0). -/
def huePrioMax (h : Nat) : Fld := ⟨0x10000 + h * 0x1000 + 0x68, 4, 0⟩
/-- R254: HUE CMD_Q, RW. -/
def hueCmdQ (h : Nat) : Fld := ⟨0x10000 + h * 0x1000 + 0x6C, 14, 0⟩
/-- R254: HUE CMD_VALID, RW. -/
def hueCmdValid (h : Nat) : Fld := ⟨0x10000 + h * 0x1000 + 0x6C, 15, 15⟩
/-- R254: HUE CPL_Q, RW. -/
def hueCplQ (h : Nat) : Fld := ⟨0x10000 + h * 0x1000 + 0x70, 14, 0⟩
/-- R254: HUE CPL_VALID, RW. -/
def hueCplValid (h : Nat) : Fld := ⟨0x10000 + h * 0x1000 + 0x70, 15, 15⟩
/-- R254: HUE FAULT_CODE, RO. -/
def hueFaultCode (h : Nat) : Fld := ⟨0x10000 + h * 0x1000 + 0x74, 15, 0⟩
/-- R254: HUE FAULT_COUNT, RO. -/
def hueFaultCount (h : Nat) : Fld := ⟨0x10000 + h * 0x1000 + 0x78, 31, 0⟩
/-- R254: HUE FAULT_FRAME_LO, RO. -/
def hueFaultFrameLo (h : Nat) : Fld := ⟨0x10000 + h * 0x1000 + 0x7C, 31, 0⟩
/-- R254: HUE FAULT_FRAME_HI, RO. -/
def hueFaultFrameHi (h : Nat) : Fld := ⟨0x10000 + h * 0x1000 + 0x80, 31, 0⟩
/-- R254: HUE RESET, W1S. -/
def hueReset (h : Nat) : Fld := ⟨0x10000 + h * 0x1000 + 0x84, 0, 0⟩
/-- R254: HUE RESETTING, RO. -/
def hueResetting (h : Nat) : Fld := ⟨0x10000 + h * 0x1000 + 0x84, 1, 1⟩
/-- R254: HUE DB_LAST.CODE, RO. -/
def hueDbLastCode (h : Nat) : Fld := ⟨0x10000 + h * 0x1000 + 0x88, 3, 0⟩
/-- R254: HUE DB_LAST.PORT, RO. -/
def hueDbLastPort (h : Nat) : Fld := ⟨0x10000 + h * 0x1000 + 0x88, 15, 8⟩
/-- R254: HUE DB_REFUSED_COUNT, RWH. -/
def hueDbRefusedCount (h : Nat) : Fld := ⟨0x10000 + h * 0x1000 + 0x8C, 31, 0⟩
/-- R254: HUE CPL_LOST_COUNT, RWH. -/
def hueCplLostCount (h : Nat) : Fld := ⟨0x10000 + h * 0x1000 + 0x90, 31, 0⟩
/-- R254: HUE CTX_SEL, RW. -/
def hueCtxSel (h : Nat) : Fld := ⟨0x10000 + h * 0x1000 + 0xA0, 14, 0⟩
/-- R254: HUE CTX_CMD.READ, W1S. -/
def hueCtxCmdRead (h : Nat) : Fld := ⟨0x10000 + h * 0x1000 + 0xA4, 0, 0⟩
/-- R254: HUE CTX_CMD.WRITE, W1S. -/
def hueCtxCmdWrite (h : Nat) : Fld := ⟨0x10000 + h * 0x1000 + 0xA4, 1, 1⟩
/-- R254: HUE CTX_STATUS.BUSY, RO. -/
def hueCtxStatusBusy (h : Nat) : Fld := ⟨0x10000 + h * 0x1000 + 0xA8, 0, 0⟩
/-- R254: HUE CTX_STATUS.DONE, RO. -/
def hueCtxStatusDone (h : Nat) : Fld := ⟨0x10000 + h * 0x1000 + 0xA8, 1, 1⟩
/-- R254: HUE CTX_STATUS.REFUSED, RO. -/
def hueCtxStatusRefused (h : Nat) : Fld := ⟨0x10000 + h * 0x1000 + 0xA8, 2, 2⟩
/-- R254: HUE CTX_STATUS.REASON, RO. -/
def hueCtxStatusReason (h : Nat) : Fld := ⟨0x10000 + h * 0x1000 + 0xA8, 15, 8⟩
/-- R254: HUE CTX_DATA, RWH. -/
def hueCtxData (h : Nat) (j : Nat) : Fld := ⟨0x10000 + h * 0x1000 + 0xC0 + 4 * j, 31, 0⟩
/-- R254: HUE PEEK_Q, RW. -/
def huePeekQ (h : Nat) : Fld := ⟨0x10000 + h * 0x1000 + 0x100, 14, 0⟩
/-- R254: HUE PEEK_HEAD, RO. -/
def huePeekHead (h : Nat) : Fld := ⟨0x10000 + h * 0x1000 + 0x104, 16, 0⟩
/-- R254: HUE PEEK_OCC, RO. -/
def huePeekOcc (h : Nat) : Fld := ⟨0x10000 + h * 0x1000 + 0x108, 16, 0⟩
/-- R254: HUE PEEK_DATA, RO. -/
def huePeekData (h : Nat) (j : Nat) : Fld := ⟨0x10000 + h * 0x1000 + 0x140 + 4 * j, 31, 0⟩
/-- R272: SEQ DEFAULT_FADE, RW. -/
def seqDefaultFade : Fld := ⟨0x60000 + 0x40, 5, 0⟩
/-- R272: SEQ READY_TIMEOUT, RW. -/
def seqReadyTimeout : Fld := ⟨0x60000 + 0x44, 15, 0⟩
/-- R272: SEQ ANN_COUNT, RO. -/
def seqAnnCount : Fld := ⟨0x60000 + 0x48, 8, 0⟩
/-- R272: SEQ CMD_COUNT, RWH. -/
def seqCmdCount : Fld := ⟨0x60000 + 0x4C, 31, 0⟩
/-- R272: SEQ REFUSED_COUNT, RWH. -/
def seqRefusedCount : Fld := ⟨0x60000 + 0x50, 31, 0⟩
/-- R272: SEQ SLOT.STATE, RO. -/
def seqSlotState (a : Nat) : Fld := ⟨seqSlot a + 0, 2, 0⟩
/-- R272: SEQ SLOT.HUE, RO. -/
def seqSlotHue (a : Nat) : Fld := ⟨seqSlot a + 0, 7, 4⟩
/-- R272: SEQ SLOT.PRIORITY, RO. -/
def seqSlotPriority (a : Nat) : Fld := ⟨seqSlot a + 0, 12, 8⟩
/-- R272: SEQ SLOT.SOURCE, RO. -/
def seqSlotSource (a : Nat) : Fld := ⟨seqSlot a + 0, 25, 16⟩
/-- R272: SEQ SLOT.TAG, RO. -/
def seqSlotTag (a : Nat) : Fld := ⟨seqSlot a + 4, 31, 0⟩
/-- R272: SEQ SLOT.HANDLE_HI_LO, RO. -/
def seqSlotHandleHiLo (a : Nat) : Fld := ⟨seqSlot a + 8, 31, 0⟩
/-- R272: SEQ SLOT.HANDLE_HI_HI, RO. -/
def seqSlotHandleHiHi (a : Nat) : Fld := ⟨seqSlot a + 12, 15, 0⟩
/-- R272: SEQ ZONE.HOLDER, RO. -/
def seqZoneHolder (z : Nat) : Fld := ⟨0x63000 + 0x40 + 8 * z, 7, 0⟩
/-- R272: SEQ ZONE.VALID, RO. -/
def seqZoneValid (z : Nat) : Fld := ⟨0x63000 + 0x40 + 8 * z, 8, 8⟩
/-- R272: SEQ ZONE.FALLING, RO. -/
def seqZoneFalling (z : Nat) : Fld := ⟨0x63000 + 0x40 + 8 * z, 9, 9⟩
/-- R272: SEQ ZONE.GAIN, RO. -/
def seqZoneGain (z : Nat) : Fld := ⟨0x63000 + 0x40 + 8 * z, 31, 16⟩
/-- R272: SEQ ZONE.J, RO. -/
def seqZoneJ (z : Nat) : Fld := ⟨0x63000 + 0x44 + 8 * z, 8, 0⟩
/-- R272: SEQ ZONE.F, RO. -/
def seqZoneF (z : Nat) : Fld := ⟨0x63000 + 0x44 + 8 * z, 24, 16⟩
/-- R272: SEQ PLAYER.SLOT, RO. -/
def seqPlayerSlot (p : Nat) : Fld := ⟨0x64000 + 0x40 + 16 * p, 7, 0⟩
/-- R272: SEQ PLAYER.BOUND, RO. -/
def seqPlayerBound (p : Nat) : Fld := ⟨0x64000 + 0x40 + 16 * p, 8, 8⟩
/-- R272: SEQ PLAYER.READY, RO. -/
def seqPlayerReady (p : Nat) : Fld := ⟨0x64000 + 0x40 + 16 * p, 9, 9⟩
/-- R272: SEQ PLAYER.ITEM, RO. -/
def seqPlayerItem (p : Nat) : Fld := ⟨0x64000 + 0x44 + 16 * p, 31, 0⟩
/-- R272: SEQ PLAYER.POSITION, RO. -/
def seqPlayerPosition (p : Nat) : Fld := ⟨0x64000 + 0x48 + 16 * p, 31, 0⟩
/-- R272: SEQ PLAYER.REPEATS_LEFT, RO. -/
def seqPlayerRepeatsLeft (p : Nat) : Fld := ⟨0x64000 + 0x4C + 16 * p, 15, 0⟩
/-- R272: SEQ NOTE.FREQ, RW. -/
def seqNoteFreq (k : Nat) (i : Nat) : Fld := ⟨0x65000 + 0x40 + 64 * k + 8 * i, 15, 0⟩
/-- R272: SEQ NOTE.LEVEL, RW. -/
def seqNoteLevel (k : Nat) (i : Nat) : Fld := ⟨0x65000 + 0x40 + 64 * k + 8 * i, 31, 16⟩
/-- R272: SEQ NOTE.DUR_MS, RW. -/
def seqNoteDurMs (k : Nat) (i : Nat) : Fld := ⟨0x65000 + 0x44 + 64 * k + 8 * i, 15, 0⟩
/-- R272: SEQ NOTE.DECAY_MS, RW. -/
def seqNoteDecayMs (k : Nat) (i : Nat) : Fld := ⟨0x65000 + 0x44 + 64 * k + 8 * i, 31, 16⟩
/-- R278: LOG BOBBIN, RW. -/
def logBobbin : Fld := ⟨0x70000 + 0x40, 14, 0⟩
/-- R278: LOG SEV_MIN, RW. -/
def logSevMin : Fld := ⟨0x70000 + 0x44, 1, 0⟩
/-- R278: LOG FIFO_LEVEL, RO. -/
def logFifoLevel : Fld := ⟨0x70000 + 0x48, 9, 0⟩
/-- R278: LOG FIFO_PEAK, RWH. -/
def logFifoPeak : Fld := ⟨0x70000 + 0x48, 25, 16⟩
/-- R278: LOG SEQNO, RO. -/
def logSeqno : Fld := ⟨0x70000 + 0x4C, 31, 0⟩
/-- R278: LOG LOST_COUNT, RWH. -/
def logLostCount : Fld := ⟨0x70000 + 0x50, 31, 0⟩
/-- R278: LOG FILTERED_COUNT, RWH. -/
def logFilteredCount : Fld := ⟨0x70000 + 0x54, 31, 0⟩
/-- R279: BOB CTX_BASE, RW. -/
def bobCtxBase : Fld := ⟨0x40000 + 0x40, 23, 0⟩
/-- R279: BOB HIT_COUNT, RWH. -/
def bobHitCount : Fld := ⟨0x40000 + 0x44, 31, 0⟩
/-- R279: BOB MISS_COUNT, RWH. -/
def bobMissCount : Fld := ⟨0x40000 + 0x48, 31, 0⟩
/-- R279: BOB FULL_COUNT, RWH. -/
def bobFullCount : Fld := ⟨0x40000 + 0x4C, 31, 0⟩
/-- R279: BOB GUARD_COUNT, RWH. -/
def bobGuardCount : Fld := ⟨0x40000 + 0x50, 31, 0⟩
/-- R279: BOB ENABLED, RO. -/
def bobEnabled : Fld := ⟨0x40000 + 0x54, 15, 0⟩
/-- R295: RX EN, RWH. -/
def rxEn (s : Nat) : Fld := ⟨strmRx s + 0x0, 0, 0⟩
/-- R295: RX LEG_A, RW. -/
def rxLegA (s : Nat) : Fld := ⟨strmRx s + 0x0, 1, 1⟩
/-- R295: RX LEG_B, RW. -/
def rxLegB (s : Nat) : Fld := ⟨strmRx s + 0x0, 2, 2⟩
/-- R295: RX FMT, RW. -/
def rxFmt (s : Nat) : Fld := ⟨strmRx s + 0x0, 3, 3⟩
/-- R295: RX CHANNELS, RW. -/
def rxChannels (s : Nat) : Fld := ⟨strmRx s + 0x0, 9, 4⟩
/-- R295: RX PTIME, RW. -/
def rxPtime (s : Nat) : Fld := ⟨strmRx s + 0x0, 11, 10⟩
/-- R295: RX DEPTH, RW. -/
def rxDepth (s : Nat) : Fld := ⟨strmRx s + 0x0, 15, 12⟩
/-- R295: RX PT, RW. -/
def rxPt (s : Nat) : Fld := ⟨strmRx s + 0x0, 22, 16⟩
/-- R295: RX PT_CHECK, RW. -/
def rxPtCheck (s : Nat) : Fld := ⟨strmRx s + 0x0, 23, 23⟩
/-- R295: RX RTP_OFFSET, RW. -/
def rxRtpOffset (s : Nat) : Fld := ⟨strmRx s + 0x4, 31, 0⟩
/-- R295: RX DST_A, RW. -/
def rxDstA (s : Nat) : Fld := ⟨strmRx s + 0x8, 31, 0⟩
/-- R295: RX SRC_A, RW. -/
def rxSrcA (s : Nat) : Fld := ⟨strmRx s + 0xC, 31, 0⟩
/-- R295: RX DST_B, RW. -/
def rxDstB (s : Nat) : Fld := ⟨strmRx s + 0x10, 31, 0⟩
/-- R295: RX SRC_B, RW. -/
def rxSrcB (s : Nat) : Fld := ⟨strmRx s + 0x14, 31, 0⟩
/-- R295: RX PORT_A, RW. -/
def rxPortA (s : Nat) : Fld := ⟨strmRx s + 0x18, 15, 0⟩
/-- R295: RX PORT_B, RW. -/
def rxPortB (s : Nat) : Fld := ⟨strmRx s + 0x18, 31, 16⟩
/-- R295: TX EN, RWH. -/
def txEn (t : Nat) : Fld := ⟨strmTx t + 0x0, 0, 0⟩
/-- R295: TX LEG_A, RW. -/
def txLegA (t : Nat) : Fld := ⟨strmTx t + 0x0, 1, 1⟩
/-- R295: TX LEG_B, RW. -/
def txLegB (t : Nat) : Fld := ⟨strmTx t + 0x0, 2, 2⟩
/-- R295: TX FMT, RW. -/
def txFmt (t : Nat) : Fld := ⟨strmTx t + 0x0, 3, 3⟩
/-- R295: TX CHANNELS, RW. -/
def txChannels (t : Nat) : Fld := ⟨strmTx t + 0x0, 9, 4⟩
/-- R295: TX DSCP, RW. -/
def txDscp (t : Nat) : Fld := ⟨strmTx t + 0x0, 15, 10⟩
/-- R295: TX PT, RW. -/
def txPt (t : Nat) : Fld := ⟨strmTx t + 0x0, 22, 16⟩
/-- R295: TX TTL, RW. -/
def txTtl (t : Nat) : Fld := ⟨strmTx t + 0x0, 31, 24⟩
/-- R295: TX RTP_OFFSET, RW. -/
def txRtpOffset (t : Nat) : Fld := ⟨strmTx t + 0x4, 31, 0⟩
/-- R295: TX DST_A, RW. -/
def txDstA (t : Nat) : Fld := ⟨strmTx t + 0x8, 31, 0⟩
/-- R295: TX DST_B, RW. -/
def txDstB (t : Nat) : Fld := ⟨strmTx t + 0xC, 31, 0⟩
/-- R295: TX DST_PORT, RW. -/
def txDstPort (t : Nat) : Fld := ⟨strmTx t + 0x10, 15, 0⟩
/-- R295: TX SRC_PORT, RW. -/
def txSrcPort (t : Nat) : Fld := ⟨strmTx t + 0x10, 31, 16⟩
/-- R295: TX SSRC, RW. -/
def txSsrc (t : Nat) : Fld := ⟨strmTx t + 0x14, 31, 0⟩
/-- R295: TX SEQ_OFFSET, RW. -/
def txSeqOffset (t : Nat) : Fld := ⟨strmTx t + 0x18, 15, 0⟩
/-- R306: STRM LINK_UP, RO. -/
def strmLinkUp (i : Nat) : Fld := ⟨0x200000 + i * 0x8000 + 0x40, 0, 0⟩
/-- R306: STRM TX_ACTIVE, RO. -/
def strmTxActive (i : Nat) : Fld := ⟨0x200000 + i * 0x8000 + 0x40, 1, 1⟩
/-- R306: STRM IGMP_MODE, RO. -/
def strmIgmpMode (i : Nat) : Fld := ⟨0x200000 + i * 0x8000 + 0x40, 3, 2⟩
/-- R306: STRM MAC_LO, RO. -/
def strmMacLo (i : Nat) : Fld := ⟨0x200000 + i * 0x8000 + 0x44, 31, 0⟩
/-- R306: STRM MAC_HI, RO. -/
def strmMacHi (i : Nat) : Fld := ⟨0x200000 + i * 0x8000 + 0x48, 15, 0⟩
/-- R306: STRM IP, RW. -/
def strmIp (i : Nat) : Fld := ⟨0x200000 + i * 0x8000 + 0x4C, 31, 0⟩
/-- R306: STRM NETMASK, RW. -/
def strmNetmask (i : Nat) : Fld := ⟨0x200000 + i * 0x8000 + 0x50, 31, 0⟩
/-- R306: STRM GATEWAY, RW. -/
def strmGateway (i : Nat) : Fld := ⟨0x200000 + i * 0x8000 + 0x54, 31, 0⟩
/-- R306: STRM PAIR_IP, RW. -/
def strmPairIp (i : Nat) : Fld := ⟨0x200000 + i * 0x8000 + 0x58, 31, 0⟩
/-- R306: STRM PAIR_MAC_LO, RW. -/
def strmPairMacLo (i : Nat) : Fld := ⟨0x200000 + i * 0x8000 + 0x5C, 31, 0⟩
/-- R306: STRM PAIR_MAC_HI, RW. -/
def strmPairMacHi (i : Nat) : Fld := ⟨0x200000 + i * 0x8000 + 0x60, 15, 0⟩
/-- R306: STRM VLAN_ID, RW. -/
def strmVlanId (i : Nat) : Fld := ⟨0x200000 + i * 0x8000 + 0x64, 11, 0⟩
/-- R306: STRM PCP, RW. -/
def strmPcp (i : Nat) : Fld := ⟨0x200000 + i * 0x8000 + 0x64, 14, 12⟩
/-- R306: STRM VLAN_EN, RW. -/
def strmVlanEn (i : Nat) : Fld := ⟨0x200000 + i * 0x8000 + 0x64, 15, 15⟩
/-- R306: STRM MTU, RW. -/
def strmMtu (i : Nat) : Fld := ⟨0x200000 + i * 0x8000 + 0x64, 29, 16⟩
/-- R306: STRM RX_PKTS, RWH. -/
def strmRxPkts (i : Nat) : Fld := ⟨0x200000 + i * 0x8000 + 0x68, 31, 0⟩
/-- R306: STRM RX_FORMAT_DROP, RWH. -/
def strmRxFormatDrop (i : Nat) : Fld := ⟨0x200000 + i * 0x8000 + 0x6C, 31, 0⟩
/-- R306: STRM RX_LATE, RWH. -/
def strmRxLate (i : Nat) : Fld := ⟨0x200000 + i * 0x8000 + 0x70, 31, 0⟩
/-- R306: STRM RX_EARLY, RWH. -/
def strmRxEarly (i : Nat) : Fld := ⟨0x200000 + i * 0x8000 + 0x74, 31, 0⟩
/-- R306: STRM RX_DUP, RWH. -/
def strmRxDup (i : Nat) : Fld := ⟨0x200000 + i * 0x8000 + 0x78, 31, 0⟩
/-- R306: STRM TX_PKTS, RWH. -/
def strmTxPkts (i : Nat) : Fld := ⟨0x200000 + i * 0x8000 + 0x7C, 31, 0⟩
/-- R306: STRM TX_WITHHELD, RWH. -/
def strmTxWithheld (i : Nat) : Fld := ⟨0x200000 + i * 0x8000 + 0x80, 31, 0⟩
/-- R306: STRM TX_WIRE_BYTES, RO. -/
def strmTxWireBytes (i : Nat) : Fld := ⟨0x200000 + i * 0x8000 + 0x84, 15, 0⟩
/-- R306: STRM IN_BASE, RW. -/
def strmInBase (i : Nat) : Fld := ⟨0x200000 + i * 0x8000 + 0x88, 31, 0⟩
/-- R306: STRM OUT_BASE, RW. -/
def strmOutBase (i : Nat) : Fld := ⟨0x200000 + i * 0x8000 + 0x8C, 31, 0⟩
/-- R306: STRM EVL.STREAM, RW. -/
def strmEvlStream (i : Nat) (k : Nat) : Fld := ⟨0x200000 + i * 0x8000 + 0x100 + 4 * k, 6, 0⟩
/-- R306: STRM EVL.COND, RW. -/
def strmEvlCond (i : Nat) (k : Nat) : Fld := ⟨0x200000 + i * 0x8000 + 0x100 + 4 * k, 9, 8⟩
/-- R307: PTP PROFILE, RW. -/
def ptpProfile : Fld := ⟨0x210000 + 0x40, 0, 0⟩
/-- R307: PTP SEL, RW. -/
def ptpSel : Fld := ⟨0x210000 + 0x40, 2, 1⟩
/-- R307: PTP GM_CAPABLE, RW. -/
def ptpGmCapable : Fld := ⟨0x210000 + 0x40, 3, 3⟩
/-- R307: PTP DOMAIN, RW. -/
def ptpDomain : Fld := ⟨0x210000 + 0x44, 7, 0⟩
/-- R307: PTP PRIORITY1, RW. -/
def ptpPriority1 : Fld := ⟨0x210000 + 0x44, 15, 8⟩
/-- R307: PTP PRIORITY2, RW. -/
def ptpPriority2 : Fld := ⟨0x210000 + 0x44, 23, 16⟩
/-- R307: PTP CLOCK_CLASS, RW. -/
def ptpClockClass : Fld := ⟨0x210000 + 0x44, 31, 24⟩
/-- R307: PTP LOG_SYNC, RW. -/
def ptpLogSync : Fld := ⟨0x210000 + 0x48, 7, 0⟩
/-- R307: PTP LOG_ANNOUNCE, RW. -/
def ptpLogAnnounce : Fld := ⟨0x210000 + 0x48, 15, 8⟩
/-- R307: PTP LOG_DELAY_REQ, RW. -/
def ptpLogDelayReq : Fld := ⟨0x210000 + 0x48, 23, 16⟩
/-- R307: PTP ANNOUNCE_TIMEOUT, RW. -/
def ptpAnnounceTimeout : Fld := ⟨0x210000 + 0x48, 31, 24⟩
/-- R307: PTP STATE, RO. -/
def ptpState : Fld := ⟨0x210000 + 0x4C, 2, 0⟩
/-- R307: PTP ACTIVE_NET, RO. -/
def ptpActiveNet : Fld := ⟨0x210000 + 0x4C, 3, 3⟩
/-- R307: PTP OFFSET_NS, RO. -/
def ptpOffsetNs : Fld := ⟨0x210000 + 0x50, 31, 0⟩
/-- R307: PTP FREQ_PPB, RO. -/
def ptpFreqPpb : Fld := ⟨0x210000 + 0x54, 31, 0⟩
/-- R307: PTP GM_ID_LO, RO. -/
def ptpGmIdLo : Fld := ⟨0x210000 + 0x58, 31, 0⟩
/-- R307: PTP GM_ID_HI, RO. -/
def ptpGmIdHi : Fld := ⟨0x210000 + 0x5C, 31, 0⟩
/-- R307: PTP STEPS_REMOVED, RO. -/
def ptpStepsRemoved : Fld := ⟨0x210000 + 0x60, 15, 0⟩
/-- R307: PTP HOLDOVER_LIMIT, RW. -/
def ptpHoldoverLimit : Fld := ⟨0x210000 + 0x64, 15, 0⟩
/-- R307: PTP STEP_REQ, W1S. -/
def ptpStepReq : Fld := ⟨0x210000 + 0x68, 0, 0⟩
/-- R307: PTP STEP_PENDING, RO. -/
def ptpStepPending : Fld := ⟨0x210000 + 0x68, 1, 1⟩
/-- R307: PTP LOCK_LOSS_COUNT, RWH. -/
def ptpLockLossCount : Fld := ⟨0x210000 + 0x6C, 31, 0⟩
/-- R307: PTP STEP_COUNT, RWH. -/
def ptpStepCount : Fld := ⟨0x210000 + 0x70, 31, 0⟩
/-- R308: TDM OUT_EN, RW. -/
def tdmOutEn (k : Nat) : Fld := ⟨0x220000 + k * 0x1000 + 0x40, 0, 0⟩
/-- R308: TDM FSYNC_SLOT, RW. -/
def tdmFsyncSlot (k : Nat) : Fld := ⟨0x220000 + k * 0x1000 + 0x40, 1, 1⟩
/-- R308: TDM DRIVING, RO. -/
def tdmDriving (k : Nat) : Fld := ⟨0x220000 + k * 0x1000 + 0x44, 0, 0⟩
/-- R308: TDM SELECTED, RO. -/
def tdmSelected (k : Nat) : Fld := ⟨0x220000 + k * 0x1000 + 0x44, 1, 1⟩
/-- R308: TDM RX_FORWARD_MISS, RWH. -/
def tdmRxForwardMiss (k : Nat) : Fld := ⟨0x220000 + k * 0x1000 + 0x48, 31, 0⟩
/-- R341: SUP LEVEL_BASE, RW. -/
def supLevelBase : Fld := ⟨0x300000 + 0x40, 31, 0⟩
/-- R341: SUP RES_BASE, RW. -/
def supResBase : Fld := ⟨0x300000 + 0x44, 31, 0⟩
/-- R341: SUP LIMIT_PCT, RW. -/
def supLimitPct : Fld := ⟨0x300000 + 0x48, 7, 0⟩
/-- R341: SUP FAULT_BANDS, RW. -/
def supFaultBands : Fld := ⟨0x300000 + 0x48, 15, 8⟩
/-- R341: SUP MIN_BANDS, RW. -/
def supMinBands : Fld := ⟨0x300000 + 0x48, 23, 16⟩
/-- R341: SUP PERSIST, RW. -/
def supPersist : Fld := ⟨0x300000 + 0x48, 27, 24⟩
/-- R341: SUP PROBE_CAP, RW. -/
def supProbeCap : Fld := ⟨0x300000 + 0x4C, 15, 0⟩
/-- R341: SUP UNC_LIMIT, RW. -/
def supUncLimit : Fld := ⟨0x300000 + 0x4C, 23, 16⟩
/-- R341: SUP COOL_LIMIT, RW. -/
def supCoolLimit : Fld := ⟨0x300000 + 0x4C, 31, 24⟩
/-- R341: SUP CAP_LIMIT_PCT, RW. -/
def supCapLimitPct : Fld := ⟨0x300000 + 0x50, 7, 0⟩
/-- R341: SUP LEAK_LIMIT, RW. -/
def supLeakLimit : Fld := ⟨0x300000 + 0x50, 15, 8⟩
/-- R341: SUP SHORT_OHMS, RW. -/
def supShortOhms : Fld := ⟨0x300000 + 0x50, 23, 16⟩
/-- R341: SUP NIGHT_FRAME_LO, RW. -/
def supNightFrameLo : Fld := ⟨0x300000 + 0x54, 31, 0⟩
/-- R341: SUP NIGHT_FRAME_HI, RW. -/
def supNightFrameHi : Fld := ⟨0x300000 + 0x58, 31, 0⟩
/-- R341: SUP NIGHT_LEN, RW. -/
def supNightLen : Fld := ⟨0x300000 + 0x5C, 31, 0⟩
/-- R341: SUP NIGHT_GROUPS, RW. -/
def supNightGroups : Fld := ⟨0x300000 + 0x60, 7, 0⟩
/-- R341: SUP NIGHT_START, W1S. -/
def supNightStart : Fld := ⟨0x300000 + 0x64, 0, 0⟩
/-- R341: SUP NIGHT_ABORT, W1S. -/
def supNightAbort : Fld := ⟨0x300000 + 0x64, 1, 1⟩
/-- R341: SUP NIGHT_ARMED, RO. -/
def supNightArmed : Fld := ⟨0x300000 + 0x64, 2, 2⟩
/-- R341: SUP NIGHT_ACTIVE, RO. -/
def supNightActive : Fld := ⟨0x300000 + 0x64, 3, 3⟩
/-- R341: SUP NIGHT_GROUP, RO. -/
def supNightGroup : Fld := ⟨0x300000 + 0x64, 6, 4⟩
/-- R341: SUP SWEEPING, RO. -/
def supSweeping : Fld := ⟨0x300000 + 0x64, 7, 7⟩
/-- R341: SUP PROBE_STALE_COUNT, RWH. -/
def supProbeStaleCount : Fld := ⟨0x300000 + 0x68, 31, 0⟩
/-- R341: SUP ABANDON_COUNT, RWH. -/
def supAbandonCount : Fld := ⟨0x300000 + 0x6C, 31, 0⟩
/-- R341: SUP PUBLISH_COUNT, RWH. -/
def supPublishCount : Fld := ⟨0x300000 + 0x70, 31, 0⟩
/-- R341: SUP GUARD_COUNT, RWH. -/
def supGuardCount : Fld := ⟨0x300000 + 0x74, 31, 0⟩
/-- R341: SUP V_SCALE, RW. -/
def supVScale (k : Nat) : Fld := ⟨0x302000 + 0x40 + 16 * k, 31, 0⟩
/-- R341: SUP I_SCALE, RW. -/
def supIScale (k : Nat) : Fld := ⟨0x302000 + 0x44 + 16 * k, 31, 0⟩
/-- R341: SUP HEAR_OFS, RW. -/
def supHearOfs (k : Nat) : Fld := ⟨0x302000 + 0x48 + 16 * k, 15, 0⟩
/-- R341: SUP BULK_DELAY, RW. -/
def supBulkDelay (k : Nat) : Fld := ⟨0x302000 + 0x48 + 16 * k, 27, 16⟩
/-- R341: SUP SWEEP_LEVEL, RW. -/
def supSweepLevel (k : Nat) : Fld := ⟨0x302000 + 0x4C + 16 * k, 15, 0⟩
/-- R341: SUP C_UNIT, RW. -/
def supCUnit (k : Nat) : Fld := ⟨0x302000 + 0x4C + 16 * k, 23, 16⟩
/-- R341: SUP STAGE_DATA, RW. -/
def supStageData (j : Nat) : Fld := ⟨0x303000 + 0x40 + 4 * j, 31, 0⟩
/-- R341: SUP STAGE_LINE, RW. -/
def supStageLine : Fld := ⟨0x303000 + 0x140, 7, 0⟩
/-- R341: SUP LOAD, W1S. -/
def supLoad : Fld := ⟨0x303000 + 0x144, 0, 0⟩
/-- R341: SUP ADOPT, W1S. -/
def supAdopt : Fld := ⟨0x303000 + 0x144, 1, 1⟩
/-- R341: SUP BUSY, RO. -/
def supBusy : Fld := ⟨0x303000 + 0x148, 0, 0⟩
/-- R341: SUP DONE, RO. -/
def supDone : Fld := ⟨0x303000 + 0x148, 1, 1⟩
/-- R341: SUP REFUSED, RO. -/
def supRefused : Fld := ⟨0x303000 + 0x148, 2, 2⟩
/-- R341: SUP REASON, RO. -/
def supReason : Fld := ⟨0x303000 + 0x148, 15, 8⟩
/-- R341: SUP ADOPTED, RO. -/
def supAdopted : Fld := ⟨0x303000 + 0x148, 23, 16⟩
/-- R341: SUP ADOPT_MASK, RW. -/
def supAdoptMask (j : Nat) : Fld := ⟨0x303000 + 0x150 + 4 * j, 31, 0⟩
/-- R341: SUP DECLARED, RO. -/
def supDeclared (k : Nat) : Fld := ⟨0x304000 + 0x40 + 4 * k, 2, 0⟩
/-- R341: SUP THERMAL_QUAL, RO. -/
def supThermalQual (k : Nat) : Fld := ⟨0x304000 + 0x40 + 4 * k, 3, 3⟩
/-- R341: SUP NIGHT_FLAGS, RO. -/
def supNightFlags (k : Nat) : Fld := ⟨0x304000 + 0x40 + 4 * k, 9, 4⟩
/-- R341: SUP BANDS_VALID, RO. -/
def supBandsValid (k : Nat) : Fld := ⟨0x304000 + 0x40 + 4 * k, 10, 10⟩
/-- R341: SUP NIGHT_VALID, RO. -/
def supNightValid (k : Nat) : Fld := ⟨0x304000 + 0x40 + 4 * k, 11, 11⟩
/-- R341: SUP LAST_STATE, RO. -/
def supLastState (k : Nat) : Fld := ⟨0x304000 + 0x40 + 4 * k, 14, 12⟩
/-- R363: TAG TAG_LEVEL, RW. -/
def tagTagLevel : Fld := ⟨0x310000 + 0x40, 15, 0⟩
/-- R363: TAG UP_DELTA, RW. -/
def tagUpDelta : Fld := ⟨0x310000 + 0x40, 31, 16⟩
/-- R363: TAG PASS_START, W1S. -/
def tagPassStart : Fld := ⟨0x310000 + 0x44, 0, 0⟩
/-- R363: TAG PASS_ABORT, W1S. -/
def tagPassAbort : Fld := ⟨0x310000 + 0x44, 1, 1⟩
/-- R363: TAG ENUM, RW. -/
def tagEnum : Fld := ⟨0x310000 + 0x44, 2, 2⟩
/-- R363: TAG READ, RW. -/
def tagRead : Fld := ⟨0x310000 + 0x44, 3, 3⟩
/-- R363: TAG WRITE_DUE, RW. -/
def tagWriteDue : Fld := ⟨0x310000 + 0x44, 4, 4⟩
/-- R363: TAG PASS_ACTIVE, RO. -/
def tagPassActive : Fld := ⟨0x310000 + 0x44, 5, 5⟩
/-- R363: TAG WRITE_OFFSET, RW. -/
def tagWriteOffset : Fld := ⟨0x310000 + 0x48, 16, 0⟩
/-- R363: TAG PASS_MASK, RW. -/
def tagPassMask (j : Nat) : Fld := ⟨0x310000 + 0x4C + 4 * j, 31, 0⟩
/-- R363: TAG CRC_ERR_COUNT, RWH. -/
def tagCrcErrCount : Fld := ⟨0x310000 + 0x64, 31, 0⟩
/-- R363: TAG NO_REPLY_COUNT, RWH. -/
def tagNoReplyCount : Fld := ⟨0x310000 + 0x68, 31, 0⟩
/-- R363: TAG WRITE_COUNT, RWH. -/
def tagWriteCount : Fld := ⟨0x310000 + 0x6C, 31, 0⟩
/-- R363: TAG TAGS, RO. -/
def tagTags (k : Nat) : Fld := ⟨0x311000 + 0x40 + 8 * k, 6, 0⟩
/-- R363: TAG LSTATE, RO. -/
def tagLstate (k : Nat) : Fld := ⟨0x311000 + 0x40 + 8 * k, 10, 8⟩
/-- R363: TAG REASON, RO. -/
def tagReason (k : Nat) : Fld := ⟨0x311000 + 0x40 + 8 * k, 23, 16⟩
/-- R363: TAG LAST_WALK_DAY, RO. -/
def tagLastWalkDay (k : Nat) : Fld := ⟨0x311000 + 0x44 + 8 * k, 31, 0⟩
/-- R363: WEAR MODEL_BASE, RW. -/
def wearModelBase : Fld := ⟨0x320000 + 0x40, 31, 0⟩
/-- R363: WEAR MODEL_COUNT, RW. -/
def wearModelCount : Fld := ⟨0x320000 + 0x44, 10, 0⟩
/-- R363: WEAR MODEL_COMMIT, W1S. -/
def wearModelCommit : Fld := ⟨0x320000 + 0x44, 16, 16⟩
/-- R363: WEAR DEFAULT_UNC, RW. -/
def wearDefaultUnc : Fld := ⟨0x320000 + 0x48, 7, 0⟩
/-- R363: WEAR DERATE_BASE, RW. -/
def wearDerateBase : Fld := ⟨0x320000 + 0x4C, 31, 0⟩
/-- R363: WEAR HOT_LINES, RO. -/
def wearHotLines : Fld := ⟨0x320000 + 0x50, 7, 0⟩
/-- R363: WEAR OVERTEMP_EVENTS, RWH. -/
def wearOvertempEvents : Fld := ⟨0x320000 + 0x54, 31, 0⟩
/-- R363: WEAR T_AMB, RW. -/
def wearTAmb (k : Nat) : Fld := ⟨0x320000 + 0x100 + 4 * k, 15, 0⟩
/-- R363: WEAR REC_DATA, RW. -/
def wearRecData (j : Nat) : Fld := ⟨0x321000 + 0x40 + 4 * j, 31, 0⟩
/-- R363: WEAR REC_LINE, RW. -/
def wearRecLine : Fld := ⟨0x321000 + 0x80, 7, 0⟩
/-- R363: WEAR REC_INDEX, RW. -/
def wearRecIndex : Fld := ⟨0x321000 + 0x80, 13, 8⟩
/-- R363: WEAR COMMIT, W1S. -/
def wearCommit : Fld := ⟨0x321000 + 0x84, 0, 0⟩
/-- R363: WEAR BUSY, RO. -/
def wearBusy : Fld := ⟨0x321000 + 0x88, 0, 0⟩
/-- R363: WEAR DONE, RO. -/
def wearDone : Fld := ⟨0x321000 + 0x88, 1, 1⟩
/-- R363: WEAR REFUSED, RO. -/
def wearRefused : Fld := ⟨0x321000 + 0x88, 2, 2⟩
/-- R363: WEAR REASON, RO. -/
def wearReason : Fld := ⟨0x321000 + 0x88, 15, 8⟩
/-- R385: PLY CORE_HUE, RW. -/
def plyCoreHue (n : Nat) : Fld := ⟨0x100000 + n * 0x1000 + 0x40, 3, 0⟩
/-- R385: PLY PSTATE.STATE, RO. -/
def plyPstateState (n : Nat) : Fld := ⟨0x100000 + n * 0x1000 + 0x44, 2, 0⟩
/-- R385: PLY PSTATE.INJECT_OK, RO. -/
def plyPstateInjectOk (n : Nat) : Fld := ⟨0x100000 + n * 0x1000 + 0x44, 3, 3⟩
/-- R385: PLY PSTATE.INJECT_GROUP, RO. -/
def plyPstateInjectGroup (n : Nat) : Fld := ⟨0x100000 + n * 0x1000 + 0x44, 9, 4⟩
/-- R385: PLY LAST_FAULT.CLASS, RO. -/
def plyLastFaultClass (n : Nat) : Fld := ⟨0x100000 + n * 0x1000 + 0x48, 1, 0⟩
/-- R385: PLY LAST_FAULT.GROUP, RO. -/
def plyLastFaultGroup (n : Nat) : Fld := ⟨0x100000 + n * 0x1000 + 0x48, 7, 2⟩
/-- R385: PLY LAST_FAULT.PORT, RO. -/
def plyLastFaultPort (n : Nat) : Fld := ⟨0x100000 + n * 0x1000 + 0x48, 19, 8⟩
/-- R385: PLY LAST_FAULT.UNRESOLVED, RO. -/
def plyLastFaultUnresolved (n : Nat) : Fld := ⟨0x100000 + n * 0x1000 + 0x48, 20, 20⟩
/-- R385: PLY LAST_FAULT_FRAME_LO, RO. -/
def plyLastFaultFrameLo (n : Nat) : Fld := ⟨0x100000 + n * 0x1000 + 0x4C, 31, 0⟩
/-- R385: PLY LAST_FAULT_FRAME_HI, RO. -/
def plyLastFaultFrameHi (n : Nat) : Fld := ⟨0x100000 + n * 0x1000 + 0x50, 31, 0⟩
/-- R385: PLY WINDOW_FAULTS, RO. -/
def plyWindowFaults (n : Nat) : Fld := ⟨0x100000 + n * 0x1000 + 0x54, 1, 0⟩
/-- R385: PLY DIVERGE_COUNT, RWH. -/
def plyDivergeCount (n : Nat) : Fld := ⟨0x100000 + n * 0x1000 + 0x58, 31, 0⟩
/-- R385: PLY CHECKER_COUNT, RWH. -/
def plyCheckerCount (n : Nat) : Fld := ⟨0x100000 + n * 0x1000 + 0x5C, 31, 0⟩
/-- R385: PLY DELAY_COUNT, RWH. -/
def plyDelayCount (n : Nat) : Fld := ⟨0x100000 + n * 0x1000 + 0x60, 31, 0⟩
/-- R385: PLY LATENT_COUNT, RWH. -/
def plyLatentCount (n : Nat) : Fld := ⟨0x100000 + n * 0x1000 + 0x64, 31, 0⟩
/-- R385: PLY ECC_CORR_COUNT, RWH. -/
def plyEccCorrCount (n : Nat) : Fld := ⟨0x100000 + n * 0x1000 + 0x68, 31, 0⟩
/-- R385: PLY REJOIN_COUNT, RWH. -/
def plyRejoinCount (n : Nat) : Fld := ⟨0x100000 + n * 0x1000 + 0x6C, 31, 0⟩
/-- R385: PLY REJOIN_VEC, RW. -/
def plyRejoinVec (n : Nat) : Fld := ⟨0x100000 + n * 0x1000 + 0x70, 31, 0⟩
/-- R385: PLY RELOAD_CH, RW. -/
def plyReloadCh (n : Nat) : Fld := ⟨0x100000 + n * 0x1000 + 0x74, 6, 0⟩
/-- R385: PLY RELOAD_VALID, RW. -/
def plyReloadValid (n : Nat) : Fld := ⟨0x100000 + n * 0x1000 + 0x74, 7, 7⟩
/-- R385: PLY QUAR_RELEASE, W1S. -/
def plyQuarRelease (n : Nat) : Fld := ⟨0x100000 + n * 0x1000 + 0x78, 0, 0⟩
/-- R385: PLY PAIR_RESET, W1S. -/
def plyPairReset (n : Nat) : Fld := ⟨0x100000 + n * 0x1000 + 0x78, 1, 1⟩
/-- R385: PLY DBG_HALT, W1S. -/
def plyDbgHalt (n : Nat) : Fld := ⟨0x100000 + n * 0x1000 + 0x7C, 0, 0⟩
/-- R385: PLY DBG_RESUME, W1S. -/
def plyDbgResume (n : Nat) : Fld := ⟨0x100000 + n * 0x1000 + 0x7C, 1, 1⟩
/-- R385: PLY DBG_STEP, W1S. -/
def plyDbgStep (n : Nat) : Fld := ⟨0x100000 + n * 0x1000 + 0x7C, 2, 2⟩
/-- R385: PLY DBG_READ, W1S. -/
def plyDbgRead (n : Nat) : Fld := ⟨0x100000 + n * 0x1000 + 0x7C, 3, 3⟩
/-- R385: PLY DBG_WRITE, W1S. -/
def plyDbgWrite (n : Nat) : Fld := ⟨0x100000 + n * 0x1000 + 0x7C, 4, 4⟩
/-- R385: PLY DBG_HALTED, RO. -/
def plyDbgHalted (n : Nat) : Fld := ⟨0x100000 + n * 0x1000 + 0x7C, 5, 5⟩
/-- R385: PLY DBG_DIFF, RO. -/
def plyDbgDiff (n : Nat) : Fld := ⟨0x100000 + n * 0x1000 + 0x7C, 6, 6⟩
/-- R385: PLY DBG_PORT, RW. -/
def plyDbgPort (n : Nat) : Fld := ⟨0x100000 + n * 0x1000 + 0x80, 11, 0⟩
/-- R385: PLY DBG_DATA_LO, RWH. -/
def plyDbgDataLo (n : Nat) : Fld := ⟨0x100000 + n * 0x1000 + 0x84, 31, 0⟩
/-- R385: PLY DBG_DATA_HI, RWH. -/
def plyDbgDataHi (n : Nat) : Fld := ⟨0x100000 + n * 0x1000 + 0x88, 31, 0⟩
/-- R412: TWIN TWIN_CFG.WIRED, RW. -/
def twinTwinCfgWired : Fld := ⟨0x400000 + 0x40, 0, 0⟩
/-- R412: TWIN STATUS.STATE, RO. -/
def twinStatusState : Fld := ⟨0x400000 + 0x44, 2, 0⟩
/-- R412: TWIN STATUS.PEER_STATE, RO. -/
def twinStatusPeerState : Fld := ⟨0x400000 + 0x44, 5, 3⟩
/-- R412: TWIN STATUS.LINK_UP, RO. -/
def twinStatusLinkUp : Fld := ⟨0x400000 + 0x44, 6, 6⟩
/-- R412: TWIN STATUS.LANES, RO. -/
def twinStatusLanes : Fld := ⟨0x400000 + 0x44, 9, 7⟩
/-- R412: TWIN STATUS.PEER_SILENT, RO. -/
def twinStatusPeerSilent : Fld := ⟨0x400000 + 0x44, 10, 10⟩
/-- R412: TWIN STATUS.OWN_A, RO. -/
def twinStatusOwnA : Fld := ⟨0x400000 + 0x44, 11, 11⟩
/-- R412: TWIN STATUS.OWN_B, RO. -/
def twinStatusOwnB : Fld := ⟨0x400000 + 0x44, 12, 12⟩
/-- R412: TWIN STATUS.HOLD, RO. -/
def twinStatusHold : Fld := ⟨0x400000 + 0x44, 13, 13⟩
/-- R412: TWIN CMD.QUIET, W1S. -/
def twinCmdQuiet : Fld := ⟨0x400000 + 0x48, 0, 0⟩
/-- R412: TWIN CMD.QUIET_HOLD, W1S. -/
def twinCmdQuietHold : Fld := ⟨0x400000 + 0x48, 1, 1⟩
/-- R412: TWIN CMD.RELEASE_HOLD, W1S. -/
def twinCmdReleaseHold : Fld := ⟨0x400000 + 0x48, 2, 2⟩
/-- R412: TWIN CMD.JOIN, W1S. -/
def twinCmdJoin : Fld := ⟨0x400000 + 0x48, 3, 3⟩
/-- R412: TWIN WDOG_FRAMES, RW. -/
def twinWdogFrames : Fld := ⟨0x400000 + 0x4C, 15, 0⟩
/-- R412: TWIN WDOG_KICK, W1S. -/
def twinWdogKick : Fld := ⟨0x400000 + 0x50, 0, 0⟩
/-- R412: TWIN WITNESS_IP, RW. -/
def twinWitnessIp : Fld := ⟨0x400000 + 0x54, 31, 0⟩
/-- R412: TWIN WITNESS_PORT, RW. -/
def twinWitnessPort : Fld := ⟨0x400000 + 0x58, 15, 0⟩
/-- R412: TWIN LAST_CHANGE_FRAME_LO, RO. -/
def twinLastChangeFrameLo : Fld := ⟨0x400000 + 0x5C, 31, 0⟩
/-- R412: TWIN LAST_CHANGE_FRAME_HI, RO. -/
def twinLastChangeFrameHi : Fld := ⟨0x400000 + 0x60, 31, 0⟩
/-- R412: TWIN BEAT_MISS_COUNT, RWH. -/
def twinBeatMissCount : Fld := ⟨0x400000 + 0x64, 31, 0⟩
/-- R412: TWIN DIGEST_MISMATCH_COUNT, RWH. -/
def twinDigestMismatchCount : Fld := ⟨0x400000 + 0x68, 31, 0⟩
/-- R412: TWIN HASH_MISMATCH_COUNT, RWH. -/
def twinHashMismatchCount : Fld := ⟨0x400000 + 0x6C, 31, 0⟩
/-- R412: TWIN QUIET_MISMATCH_COUNT, RWH. -/
def twinQuietMismatchCount : Fld := ⟨0x400000 + 0x70, 31, 0⟩
/-- R412: TWIN FWD_LATE_COUNT, RWH. -/
def twinFwdLateCount : Fld := ⟨0x400000 + 0x74, 31, 0⟩
/-- R412: TWIN RETX_COUNT, RWH. -/
def twinRetxCount : Fld := ⟨0x400000 + 0x78, 31, 0⟩
/-- R412: TWIN CRC_ERR_COUNT, RWH. -/
def twinCrcErrCount : Fld := ⟨0x400000 + 0x7C, 31, 0⟩
/-- R412: TWIN COMMIT_LO, RO. -/
def twinCommitLo : Fld := ⟨0x400000 + 0x80, 31, 0⟩
/-- R412: TWIN COMMIT_HI, RO. -/
def twinCommitHi : Fld := ⟨0x400000 + 0x84, 31, 0⟩
/-- R412: TWIN JOIN_RANGE_BASE, RW. -/
def twinJoinRangeBase (r : Nat) : Fld := ⟨0x401000 + 0x40 + 16 * r, 31, 0⟩
/-- R412: TWIN JOIN_RANGE_LIMIT, RW. -/
def twinJoinRangeLimit (r : Nat) : Fld := ⟨0x401000 + 0x44 + 16 * r, 31, 0⟩
/-- R412: TWIN JOIN_RANGE_EN, RW. -/
def twinJoinRangeEn (r : Nat) : Fld := ⟨0x401000 + 0x48 + 16 * r, 0, 0⟩
/-- R412: TWIN JOIN_PROGRESS, RO. -/
def twinJoinProgress : Fld := ⟨0x401000 + 0xC0, 7, 0⟩
/-- R412: TWIN PEER_SERIAL_LO, RO. -/
def twinPeerSerialLo : Fld := ⟨0x401000 + 0xC4, 31, 0⟩
/-- R412: TWIN PEER_SERIAL_HI, RO. -/
def twinPeerSerialHi : Fld := ⟨0x401000 + 0xC8, 31, 0⟩
/-- R412: TWIN PEER_IMAGE_ID, RO. -/
def twinPeerImageId : Fld := ⟨0x401000 + 0xCC, 31, 0⟩
/-- R432: BIST SHUTDOWN, W1S. -/
def bistShutdown : Fld := ⟨0x410000 + 0x40, 0, 0⟩
/-- R432: BIST STANDBY, W1S. -/
def bistStandby : Fld := ⟨0x410000 + 0x40, 1, 1⟩
/-- R432: BIST WAKE, W1S. -/
def bistWake : Fld := ⟨0x410000 + 0x40, 2, 2⟩
/-- R432: BIST RUN, W1S. -/
def bistRun : Fld := ⟨0x410000 + 0x40, 3, 3⟩
/-- R432: BIST RUN_SEL, RW. -/
def bistRunSel : Fld := ⟨0x410000 + 0x44, 5, 0⟩
/-- R432: BIST PSTATUS.PMODE, RO. -/
def bistPstatusPmode : Fld := ⟨0x410000 + 0x48, 2, 0⟩
/-- R432: BIST PSTATUS.PWR_A_OK, RO. -/
def bistPstatusPwrAOk : Fld := ⟨0x410000 + 0x48, 3, 3⟩
/-- R432: BIST PSTATUS.PWR_B_OK, RO. -/
def bistPstatusPwrBOk : Fld := ⟨0x410000 + 0x48, 4, 4⟩
/-- R432: BIST PSTATUS.REC_VALID, RO. -/
def bistPstatusRecValid : Fld := ⟨0x410000 + 0x48, 5, 5⟩
/-- R432: BIST PSTATUS.BUSY, RO. -/
def bistPstatusBusy : Fld := ⟨0x410000 + 0x48, 6, 6⟩
/-- R432: BIST PSTATUS.CUR, RO. -/
def bistPstatusCur : Fld := ⟨0x410000 + 0x48, 13, 8⟩
/-- R432: BIST DUE_LO, RO. -/
def bistDueLo : Fld := ⟨0x410000 + 0x4C, 31, 0⟩
/-- R432: BIST DUE_HI, RO. -/
def bistDueHi : Fld := ⟨0x410000 + 0x50, 9, 0⟩
/-- R432: BIST START_MS, RO. -/
def bistStartMs : Fld := ⟨0x410000 + 0x54, 31, 0⟩
/-- R432: BIST HOLDUP_COUNT, RWH. -/
def bistHoldupCount : Fld := ⟨0x410000 + 0x58, 31, 0⟩
/-- R432: BIST RET_BASE, RW. -/
def bistRetBase : Fld := ⟨0x410000 + 0x5C, 31, 0⟩
/-- R432: BIST SIG_LO, RO. -/
def bistSigLo (i : Nat) : Fld := ⟨0x411000 + 0x40 + 16 * i, 31, 0⟩
/-- R432: BIST SIG_HI, RO. -/
def bistSigHi (i : Nat) : Fld := ⟨0x411000 + 0x44 + 16 * i, 31, 0⟩
/-- R432: BIST RESULT, RO. -/
def bistResult (i : Nat) : Fld := ⟨0x411000 + 0x48 + 16 * i, 1, 0⟩
/-- R432: BIST QUICK, RO. -/
def bistQuick (i : Nat) : Fld := ⟨0x411000 + 0x48 + 16 * i, 2, 2⟩
/-- R432: BIST LEGACY.COVERAGE, RO. -/
def bistLegacyCoverage (i : Nat) : Fld := ⟨0x411000 + 0x4C + 16 * i, 14, 0⟩
/-- R432: BIST LEGACY.FAIL, RO. -/
def bistLegacyFail (i : Nat) : Fld := ⟨0x411000 + 0x4C + 16 * i, 15, 15⟩
/-- R432: BIST LEGACY.DURATION, RO. -/
def bistLegacyDuration (i : Nat) : Fld := ⟨0x411000 + 0x4C + 16 * i, 31, 16⟩
/-- R433: STOR BOOTED_B, RO. -/
def storBootedB : Fld := ⟨0x520000 + 0x40, 0, 0⟩
/-- R433: STOR VALID_A, RO. -/
def storValidA : Fld := ⟨0x520000 + 0x40, 1, 1⟩
/-- R433: STOR VALID_B, RO. -/
def storValidB : Fld := ⟨0x520000 + 0x40, 2, 2⟩
/-- R433: STOR BOOT_TRY_EN, RWH. -/
def storBootTryEn : Fld := ⟨0x520000 + 0x40, 3, 3⟩
/-- R433: STOR BOOT_TRY_B, RW. -/
def storBootTryB : Fld := ⟨0x520000 + 0x40, 4, 4⟩
/-- R433: STOR LOG_PERSIST, RW. -/
def storLogPersist : Fld := ⟨0x520000 + 0x40, 5, 5⟩
/-- R433: STOR IMAGE_ID, RO. -/
def storImageId : Fld := ⟨0x520000 + 0x44, 31, 0⟩
/-- R433: STOR GEN_A, RO. -/
def storGenA : Fld := ⟨0x520000 + 0x48, 31, 0⟩
/-- R433: STOR GEN_B, RO. -/
def storGenB : Fld := ⟨0x520000 + 0x4C, 31, 0⟩
/-- R433: STOR CMD.OP, RW. -/
def storCmdOp : Fld := ⟨0x520000 + 0x50, 2, 0⟩
/-- R433: STOR CMD.GO, W1S. -/
def storCmdGo : Fld := ⟨0x520000 + 0x50, 31, 31⟩
/-- R433: STOR ARG_ADDR_LO, RW. -/
def storArgAddrLo : Fld := ⟨0x520000 + 0x54, 31, 0⟩
/-- R433: STOR ARG_ADDR_HI, RW. -/
def storArgAddrHi : Fld := ⟨0x520000 + 0x58, 7, 0⟩
/-- R433: STOR ARG_TARGET, RW. -/
def storArgTarget : Fld := ⟨0x520000 + 0x5C, 31, 0⟩
/-- R433: STOR ARG_LEN, RW. -/
def storArgLen : Fld := ⟨0x520000 + 0x60, 31, 0⟩
/-- R433: STOR CMD_STATUS.BUSY, RO. -/
def storCmdStatusBusy : Fld := ⟨0x520000 + 0x64, 0, 0⟩
/-- R433: STOR CMD_STATUS.DONE, RO. -/
def storCmdStatusDone : Fld := ⟨0x520000 + 0x64, 1, 1⟩
/-- R433: STOR CMD_STATUS.FAILED, RO. -/
def storCmdStatusFailed : Fld := ⟨0x520000 + 0x64, 2, 2⟩
/-- R433: STOR CMD_STATUS.REASON, RO. -/
def storCmdStatusReason : Fld := ⟨0x520000 + 0x64, 15, 8⟩
/-- R433: STOR MIRROR_ERR_COUNT, RWH. -/
def storMirrorErrCount : Fld := ⟨0x520000 + 0x68, 31, 0⟩
/-- R433: STOR READ_ERR_COUNT, RWH. -/
def storReadErrCount : Fld := ⟨0x520000 + 0x6C, 31, 0⟩
/-- R453: CONT THRESH_SHORT, RW. -/
def contThreshShort : Fld := ⟨0x500000 + 0x40, 15, 0⟩
/-- R453: CONT THRESH_ACTIVE, RW. -/
def contThreshActive : Fld := ⟨0x500000 + 0x40, 31, 16⟩
/-- R453: CONT THRESH_OPEN, RW. -/
def contThreshOpen : Fld := ⟨0x500000 + 0x44, 15, 0⟩
/-- R453: CONT DEBOUNCE, RW. -/
def contDebounce : Fld := ⟨0x500000 + 0x44, 19, 16⟩
/-- R453: CONT ENABLE, RW. -/
def contEnable : Fld := ⟨0x500000 + 0x48, 31, 0⟩
/-- R453: CONT CHANGED, W1C. -/
def contChanged : Fld := ⟨0x500000 + 0x4C, 31, 0⟩
/-- R453: CONT STATE, RO. -/
def contState (n : Nat) : Fld := ⟨0x500000 + 0x50 + 4 * n, 1, 0⟩
/-- R453: CONT MEASURED, RO. -/
def contMeasured (n : Nat) : Fld := ⟨0x500000 + 0x50 + 4 * n, 2, 2⟩
/-- R453: CONT OHMS, RO. -/
def contOhms (n : Nat) : Fld := ⟨0x500000 + 0x50 + 4 * n, 31, 16⟩
/-- R453: CONT PORT_EN, RW. -/
def contPortEn (p : Nat) : Fld := ⟨0x500000 + 0x100 + 32 * p, 0, 0⟩
/-- R453: CONT PARITY, RW. -/
def contParity (p : Nat) : Fld := ⟨0x500000 + 0x100 + 32 * p, 2, 1⟩
/-- R453: CONT STOP2, RW. -/
def contStop2 (p : Nat) : Fld := ⟨0x500000 + 0x100 + 32 * p, 3, 3⟩
/-- R453: CONT DIV, RW. -/
def contDiv (p : Nat) : Fld := ⟨0x500000 + 0x100 + 32 * p, 31, 16⟩
/-- R453: CONT RX_Q, RW. -/
def contRxQ (p : Nat) : Fld := ⟨0x500000 + 0x104 + 32 * p, 14, 0⟩
/-- R453: CONT RX_VALID, RW. -/
def contRxValid (p : Nat) : Fld := ⟨0x500000 + 0x104 + 32 * p, 15, 15⟩
/-- R453: CONT TX_Q, RW. -/
def contTxQ (p : Nat) : Fld := ⟨0x500000 + 0x108 + 32 * p, 14, 0⟩
/-- R453: CONT TX_VALID, RW. -/
def contTxValid (p : Nat) : Fld := ⟨0x500000 + 0x108 + 32 * p, 15, 15⟩
/-- R453: CONT RX_DROP, RWH. -/
def contRxDrop (p : Nat) : Fld := ⟨0x500000 + 0x10C + 32 * p, 31, 0⟩
/-- R453: CONT ERR_FRAMES, RWH. -/
def contErrFrames (p : Nat) : Fld := ⟨0x500000 + 0x110 + 32 * p, 31, 0⟩
/-- R454: REL OUT, RW. -/
def relOut : Fld := ⟨0x510000 + 0x40, 15, 0⟩
/-- R454: REL READBACK, RO. -/
def relReadback : Fld := ⟨0x510000 + 0x44, 15, 0⟩
/-- R454: REL OC, W1C. -/
def relOc : Fld := ⟨0x510000 + 0x48, 15, 0⟩
/-- R454: REL MISMATCH, W1C. -/
def relMismatch : Fld := ⟨0x510000 + 0x48, 31, 16⟩

/-- The registers of the MOD pages that software writes or that reset non-zero. -/
def rowsMod : List RegRow :=
  [ ⟨0x4, [], 0x0, 0x0, 0x0, 0xC0⟩,
    ⟨0x58, [], 0x0, 0x0, 0xFFFFFFFF, 0x0⟩,
    ⟨0x1040, [], 0xFFFF, 0x0, 0x0, 0x2437⟩,
    ⟨0x1044, [], 0xF, 0x0, 0x0, 0x0⟩,
    ⟨0x1048, [], 0xF, 0x0, 0x0, 0x0⟩,
    ⟨0x1074, [], 0x0, 0x0, 0xFFFFFFFF, 0x0⟩,
    ⟨0x1078, [], 0x0, 0x0, 0xFFFFFFFF, 0x0⟩,
    ⟨0x107C, [], 0x0, 0x0, 0xFFFFFFFF, 0x0⟩,
    ⟨0x1088, [], 0x0, 0x0, 0xFFFFFFFF, 0x0⟩ ]

/-- The registers of the HUE pages that software writes or that reset non-zero. -/
def rowsHue : List RegRow :=
  [ ⟨0x10040, [(16, 0x1000)], 0xFFFF, 0x0, 0x0, 0x0⟩,
    ⟨0x10044, [(16, 0x1000)], 0xFFFFFF, 0x0, 0x0, 0x0⟩,
    ⟨0x10050, [(16, 0x1000), (6, 0x4)], 0xFFFFFFFF, 0x0, 0x0, 0x0⟩,
    ⟨0x10068, [(16, 0x1000)], 0x1F, 0x0, 0x0, 0x0⟩,
    ⟨0x1006C, [(16, 0x1000)], 0xFFFF, 0x0, 0x0, 0x0⟩,
    ⟨0x10070, [(16, 0x1000)], 0xFFFF, 0x0, 0x0, 0x0⟩,
    ⟨0x1008C, [(16, 0x1000)], 0x0, 0x0, 0xFFFFFFFF, 0x0⟩,
    ⟨0x10090, [(16, 0x1000)], 0x0, 0x0, 0xFFFFFFFF, 0x0⟩,
    ⟨0x100A0, [(16, 0x1000)], 0x7FFF, 0x0, 0x0, 0x0⟩,
    ⟨0x100C0, [(16, 0x1000), (8, 0x4)], 0xFFFFFFFF, 0x0, 0x0, 0x0⟩,
    ⟨0x10100, [(16, 0x1000)], 0x7FFF, 0x0, 0x0, 0x0⟩ ]

/-- The registers of the EVC pages that software writes or that reset non-zero. -/
def rowsEvc : List RegRow :=
  [ ⟨0x20070, [], 0x0, 0x0, 0xFFFFFFFF, 0x0⟩,
    ⟨0x20074, [], 0x0, 0x0, 0xFFFFFFFF, 0x0⟩,
    ⟨0x21040, [(4, 0x1000), (256, 0x8)], 0xFFFFFF3F, 0x0, 0x0, 0xB0000000⟩,
    ⟨0x21044, [(4, 0x1000), (256, 0x8)], 0xFFFFFFFF, 0x0, 0x0, 0x0⟩,
    ⟨0x25044, [(32, 0x10)], 0x0, 0xFFFFFFFF, 0x0, 0x0⟩,
    ⟨0x26400, [(32, 0x8)], 0xFFFF, 0x0, 0x0, 0x0⟩,
    ⟨0x27040, [(12, 0x10)], 0xF, 0x0, 0x0, 0x0⟩,
    ⟨0x27048, [(12, 0x10)], 0x0, 0x0, 0xFFFFFFFF, 0x0⟩,
    ⟨0x2704C, [(12, 0x10)], 0x0, 0x0, 0xFFFFFFFF, 0x0⟩,
    ⟨0x27100, [], 0xF0FFF, 0x0, 0x0, 0x0⟩,
    ⟨0x27104, [], 0xFFFFFFFF, 0x0, 0x0, 0x0⟩,
    ⟨0x2710C, [], 0x0, 0x0, 0xFFFFFFFF, 0x0⟩,
    ⟨0x27144, [], 0xFF, 0x0, 0x0, 0x0⟩,
    ⟨0x27180, [(32, 0x4)], 0x83FF, 0x0, 0x0, 0x0⟩ ]

/-- The registers of the SPINDLE pages that software writes or that reset non-zero. -/
def rowsSpindle : List RegRow :=
  [ ⟨0x30040, [], 0xFFFF, 0x0, 0x0, 0x1000⟩,
    ⟨0x3004C, [], 0x0, 0x0, 0xFFFFFFFF, 0x0⟩,
    ⟨0x30050, [], 0x0, 0x0, 0xFFFFFFFF, 0x0⟩,
    ⟨0x31040, [(16, 0x10)], 0x3, 0x0, 0x0, 0x0⟩,
    ⟨0x31044, [(16, 0x10)], 0xFFFFFFFF, 0x0, 0x0, 0x1⟩,
    ⟨0x31048, [(16, 0x10)], 0x1FFFE, 0x0, 0x0, 0x0⟩,
    ⟨0x32040, [(8, 0x1000), (16, 0x80)], 0x1, 0x0, 0x0, 0x0⟩,
    ⟨0x32048, [(8, 0x1000), (16, 0x80)], 0x0, 0xF, 0x0, 0x0⟩,
    ⟨0x3204C, [(8, 0x1000), (16, 0x80)], 0xF, 0x0, 0x0, 0x0⟩,
    ⟨0x32050, [(8, 0x1000), (16, 0x80)], 0xF, 0x0, 0x0, 0x0⟩,
    ⟨0x32068, [(8, 0x1000), (16, 0x80)], 0x0, 0x0, 0xFFFFFFFF, 0x0⟩,
    ⟨0x32090, [(8, 0x1000), (16, 0x80)], 0xFFFFFFFF, 0x0, 0x0, 0x0⟩,
    ⟨0x32094, [(8, 0x1000), (16, 0x80)], 0xFF, 0x0, 0x0, 0x0⟩,
    ⟨0x32098, [(8, 0x1000), (16, 0x80)], 0xFFFFFFFF, 0x0, 0x0, 0x0⟩,
    ⟨0x3209C, [(8, 0x1000), (16, 0x80)], 0xFF, 0x0, 0x0, 0x0⟩,
    ⟨0x320A0, [(8, 0x1000), (16, 0x80)], 0xFFFFFFFF, 0x0, 0x0, 0x0⟩,
    ⟨0x320A4, [(8, 0x1000), (16, 0x80)], 0x1FFFF, 0x0, 0x0, 0x0⟩,
    ⟨0x320A8, [(8, 0x1000), (16, 0x80)], 0xFFFFFFF0, 0x0, 0x0, 0x0⟩,
    ⟨0x320AC, [(8, 0x1000), (16, 0x80)], 0xFF, 0x0, 0x0, 0x0⟩ ]

/-- The registers of the BOBBIN pages that software writes or that reset non-zero. -/
def rowsBobbin : List RegRow :=
  [ ⟨0x40040, [], 0xFFFFFF, 0x0, 0x0, 0x1160⟩,
    ⟨0x40044, [], 0x0, 0x0, 0xFFFFFFFF, 0x0⟩,
    ⟨0x40048, [], 0x0, 0x0, 0xFFFFFFFF, 0x0⟩,
    ⟨0x4004C, [], 0x0, 0x0, 0xFFFFFFFF, 0x0⟩,
    ⟨0x40050, [], 0x0, 0x0, 0xFFFFFFFF, 0x0⟩,
    ⟨0x41040, [(32, 0x4)], 0xFFFFFFFF, 0x0, 0x0, 0x0⟩ ]

/-- The registers of the CHT pages that software writes or that reset non-zero. -/
def rowsCht : List RegRow :=
  [ ⟨0x52040, [(2, 0x1000), (8, 0x100), (32, 0x4)], 0xFFFFFFFF, 0x0, 0x0, 0x0⟩,
    ⟨0x520C0, [(2, 0x1000), (8, 0x100)], 0x1FF, 0x0, 0x0, 0x0⟩,
    ⟨0x51040, [(12, 0x10)], 0xFFFFFFFF, 0x0, 0x0, 0x0⟩,
    ⟨0x51048, [(12, 0x10)], 0xFFFFFFFF, 0x0, 0x0, 0x0⟩,
    ⟨0x5104C, [(12, 0x10)], 0xFFFFFFFF, 0x0, 0x0, 0x0⟩,
    ⟨0x51240, [(64, 0x4)], 0x7F03, 0x0, 0x0, 0x0⟩,
    ⟨0x50040, [], 0xFFFFFF, 0x0, 0x0, 0x117F⟩,
    ⟨0x5004C, [], 0x0, 0x0, 0xFFFFFFFF, 0x0⟩,
    ⟨0x50050, [], 0x0, 0x0, 0xFFFFFFFF, 0x0⟩,
    ⟨0x50054, [], 0x0, 0x0, 0xFFFFFFFF, 0x0⟩,
    ⟨0x50058, [], 0x10, 0x0, 0x0, 0x0⟩,
    ⟨0x5005C, [], 0xFFFFFFFF, 0x0, 0x0, 0x0⟩,
    ⟨0x50060, [], 0xFFFFFFFF, 0x0, 0x0, 0x0⟩,
    ⟨0x50074, [], 0x0, 0x0, 0xFFFFFFFF, 0x0⟩,
    ⟨0x50078, [], 0x0, 0x0, 0xFFFFFFFF, 0x0⟩ ]

/-- The registers of the SEQ pages that software writes or that reset non-zero. -/
def rowsSeq : List RegRow :=
  [ ⟨0x60040, [], 0x3F, 0x0, 0x0, 0x2⟩,
    ⟨0x60044, [], 0xFFFF, 0x0, 0x0, 0x7D0⟩,
    ⟨0x6004C, [], 0x0, 0x0, 0xFFFFFFFF, 0x0⟩,
    ⟨0x60050, [], 0x0, 0x0, 0xFFFFFFFF, 0x0⟩,
    ⟨0x65040, [(16, 0x40), (8, 0x8)], 0xFFFFFFFF, 0x0, 0x0, 0x0⟩,
    ⟨0x65044, [(16, 0x40), (8, 0x8)], 0xFFFFFFFF, 0x0, 0x0, 0x0⟩ ]

/-- The registers of the LOG pages that software writes or that reset non-zero. -/
def rowsLog : List RegRow :=
  [ ⟨0x70040, [], 0x7FFF, 0x0, 0x0, 0x0⟩,
    ⟨0x70044, [], 0x3, 0x0, 0x0, 0x0⟩,
    ⟨0x70048, [], 0x0, 0x0, 0x3FF0000, 0x0⟩,
    ⟨0x70050, [], 0x0, 0x0, 0xFFFFFFFF, 0x0⟩,
    ⟨0x70054, [], 0x0, 0x0, 0xFFFFFFFF, 0x0⟩ ]

/-- The registers of the PLY pages that software writes or that reset non-zero. -/
def rowsPly : List RegRow :=
  [ ⟨0x100040, [(12, 0x1000)], 0xF, 0x0, 0x0, 0x0⟩,
    ⟨0x100058, [(12, 0x1000)], 0x0, 0x0, 0xFFFFFFFF, 0x0⟩,
    ⟨0x10005C, [(12, 0x1000)], 0x0, 0x0, 0xFFFFFFFF, 0x0⟩,
    ⟨0x100060, [(12, 0x1000)], 0x0, 0x0, 0xFFFFFFFF, 0x0⟩,
    ⟨0x100064, [(12, 0x1000)], 0x0, 0x0, 0xFFFFFFFF, 0x0⟩,
    ⟨0x100068, [(12, 0x1000)], 0x0, 0x0, 0xFFFFFFFF, 0x0⟩,
    ⟨0x10006C, [(12, 0x1000)], 0x0, 0x0, 0xFFFFFFFF, 0x0⟩,
    ⟨0x100070, [(12, 0x1000)], 0xFFFFFFFF, 0x0, 0x0, 0x0⟩,
    ⟨0x100074, [(12, 0x1000)], 0xFF, 0x0, 0x0, 0x0⟩,
    ⟨0x100080, [(12, 0x1000)], 0xFFF, 0x0, 0x0, 0x0⟩,
    ⟨0x100084, [(12, 0x1000)], 0xFFFFFFFF, 0x0, 0x0, 0x0⟩,
    ⟨0x100088, [(12, 0x1000)], 0xFFFFFFFF, 0x0, 0x0, 0x0⟩ ]

/-- The registers of the STRM pages that software writes or that reset non-zero. -/
def rowsStrm : List RegRow :=
  [ ⟨0x202040, [(2, 0x1000), (64, 0x20)], 0xFFFFFF, 0x0, 0x0, 0x0⟩,
    ⟨0x202044, [(2, 0x1000), (64, 0x20)], 0xFFFFFFFF, 0x0, 0x0, 0x0⟩,
    ⟨0x202048, [(2, 0x1000), (64, 0x20)], 0xFFFFFFFF, 0x0, 0x0, 0x0⟩,
    ⟨0x20204C, [(2, 0x1000), (64, 0x20)], 0xFFFFFFFF, 0x0, 0x0, 0x0⟩,
    ⟨0x202050, [(2, 0x1000), (64, 0x20)], 0xFFFFFFFF, 0x0, 0x0, 0x0⟩,
    ⟨0x202054, [(2, 0x1000), (64, 0x20)], 0xFFFFFFFF, 0x0, 0x0, 0x0⟩,
    ⟨0x202058, [(2, 0x1000), (64, 0x20)], 0xFFFFFFFF, 0x0, 0x0, 0x0⟩,
    ⟨0x204040, [(2, 0x1000), (48, 0x20)], 0xFF7FFFFF, 0x0, 0x0, 0x0⟩,
    ⟨0x204044, [(2, 0x1000), (48, 0x20)], 0xFFFFFFFF, 0x0, 0x0, 0x0⟩,
    ⟨0x204048, [(2, 0x1000), (48, 0x20)], 0xFFFFFFFF, 0x0, 0x0, 0x0⟩,
    ⟨0x20404C, [(2, 0x1000), (48, 0x20)], 0xFFFFFFFF, 0x0, 0x0, 0x0⟩,
    ⟨0x204050, [(2, 0x1000), (48, 0x20)], 0xFFFFFFFF, 0x0, 0x0, 0x0⟩,
    ⟨0x204054, [(2, 0x1000), (48, 0x20)], 0xFFFFFFFF, 0x0, 0x0, 0x0⟩,
    ⟨0x204058, [(2, 0x1000), (48, 0x20)], 0xFFFF, 0x0, 0x0, 0x0⟩,
    ⟨0x200040, [(2, 0x8000)], 0x0, 0x0, 0x0, 0xC⟩,
    ⟨0x20004C, [(2, 0x8000)], 0xFFFFFFFF, 0x0, 0x0, 0x0⟩,
    ⟨0x200050, [(2, 0x8000)], 0xFFFFFFFF, 0x0, 0x0, 0x0⟩,
    ⟨0x200054, [(2, 0x8000)], 0xFFFFFFFF, 0x0, 0x0, 0x0⟩,
    ⟨0x200058, [(2, 0x8000)], 0xFFFFFFFF, 0x0, 0x0, 0x0⟩,
    ⟨0x20005C, [(2, 0x8000)], 0xFFFFFFFF, 0x0, 0x0, 0x0⟩,
    ⟨0x200060, [(2, 0x8000)], 0xFFFF, 0x0, 0x0, 0x0⟩,
    ⟨0x200064, [(2, 0x8000)], 0x3FFFFFFF, 0x0, 0x0, 0x5DC0000⟩,
    ⟨0x200068, [(2, 0x8000)], 0x0, 0x0, 0xFFFFFFFF, 0x0⟩,
    ⟨0x20006C, [(2, 0x8000)], 0x0, 0x0, 0xFFFFFFFF, 0x0⟩,
    ⟨0x200070, [(2, 0x8000)], 0x0, 0x0, 0xFFFFFFFF, 0x0⟩,
    ⟨0x200074, [(2, 0x8000)], 0x0, 0x0, 0xFFFFFFFF, 0x0⟩,
    ⟨0x200078, [(2, 0x8000)], 0x0, 0x0, 0xFFFFFFFF, 0x0⟩,
    ⟨0x20007C, [(2, 0x8000)], 0x0, 0x0, 0xFFFFFFFF, 0x0⟩,
    ⟨0x200080, [(2, 0x8000)], 0x0, 0x0, 0xFFFFFFFF, 0x0⟩,
    ⟨0x200088, [(2, 0x8000)], 0xFFFFFFFF, 0x0, 0x0, 0x117000⟩,
    ⟨0x20008C, [(2, 0x8000)], 0xFFFFFFFF, 0x0, 0x0, 0x117080⟩,
    ⟨0x200100, [(2, 0x8000), (64, 0x4)], 0x37F, 0x0, 0x0, 0x0⟩,
    ⟨0x201040, [(2, 0x8000), (128, 0x8), (2, 0x4)], 0x0, 0x0, 0xFFFFFFFF, 0x0⟩ ]

/-- The registers of the PTP pages that software writes or that reset non-zero. -/
def rowsPtp : List RegRow :=
  [ ⟨0x210040, [], 0xF, 0x0, 0x0, 0x4⟩,
    ⟨0x210044, [], 0xFFFFFFFF, 0x0, 0x0, 0xF8808000⟩,
    ⟨0x210048, [], 0xFFFFFFFF, 0x0, 0x0, 0x30001FD⟩,
    ⟨0x210064, [], 0xFFFF, 0x0, 0x0, 0x3C⟩,
    ⟨0x21006C, [], 0x0, 0x0, 0xFFFFFFFF, 0x0⟩,
    ⟨0x210070, [], 0x0, 0x0, 0xFFFFFFFF, 0x0⟩ ]

/-- The registers of the TDM pages that software writes or that reset non-zero. -/
def rowsTdm : List RegRow :=
  [ ⟨0x220040, [(12, 0x1000)], 0x3, 0x0, 0x0, 0x0⟩,
    ⟨0x220048, [(12, 0x1000)], 0x0, 0x0, 0xFFFFFFFF, 0x0⟩ ]

/-- The registers of the SUP pages that software writes or that reset non-zero. -/
def rowsSup : List RegRow :=
  [ ⟨0x300040, [], 0xFFFFFFFF, 0x0, 0x0, 0x117100⟩,
    ⟨0x300044, [], 0xFFFFFFFF, 0x0, 0x0, 0x117400⟩,
    ⟨0x300048, [], 0xFFFFFFF, 0x0, 0x0, 0x206030F⟩,
    ⟨0x30004C, [], 0xFFFFFFFF, 0x0, 0x0, 0x519E200⟩,
    ⟨0x300050, [], 0xFFFFFF, 0x0, 0x0, 0x140A0A⟩,
    ⟨0x300054, [], 0xFFFFFFFF, 0x0, 0x0, 0x0⟩,
    ⟨0x300058, [], 0xFFFFFFFF, 0x0, 0x0, 0x0⟩,
    ⟨0x30005C, [], 0xFFFFFFFF, 0x0, 0x0, 0x75300⟩,
    ⟨0x300060, [], 0xFF, 0x0, 0x0, 0xFF⟩,
    ⟨0x300068, [], 0x0, 0x0, 0xFFFFFFFF, 0x0⟩,
    ⟨0x30006C, [], 0x0, 0x0, 0xFFFFFFFF, 0x0⟩,
    ⟨0x300070, [], 0x0, 0x0, 0xFFFFFFFF, 0x0⟩,
    ⟨0x300074, [], 0x0, 0x0, 0xFFFFFFFF, 0x0⟩,
    ⟨0x302040, [(192, 0x10)], 0xFFFFFFFF, 0x0, 0x0, 0x0⟩,
    ⟨0x302044, [(192, 0x10)], 0xFFFFFFFF, 0x0, 0x0, 0x0⟩,
    ⟨0x302048, [(192, 0x10)], 0xFFFFFFF, 0x0, 0x0, 0x300000⟩,
    ⟨0x30204C, [(192, 0x10)], 0xFFFFFF, 0x0, 0x0, 0xE200⟩,
    ⟨0x303040, [(64, 0x4)], 0xFFFFFFFF, 0x0, 0x0, 0x0⟩,
    ⟨0x303140, [], 0xFF, 0x0, 0x0, 0x0⟩,
    ⟨0x303150, [(6, 0x4)], 0xFFFFFFFF, 0x0, 0x0, 0x0⟩,
    ⟨0x304040, [(192, 0x4)], 0x0, 0x0, 0x0, 0x7⟩,
    ⟨0x301040, [(24, 0x4)], 0xFFFF, 0x0, 0x0, 0xB000⟩ ]

/-- The registers of the TAG pages that software writes or that reset non-zero. -/
def rowsTag : List RegRow :=
  [ ⟨0x310040, [], 0xFFFFFFFF, 0x0, 0x0, 0x40E600⟩,
    ⟨0x310044, [], 0x1C, 0x0, 0x0, 0x1C⟩,
    ⟨0x310048, [], 0x1FFFF, 0x0, 0x0, 0x1C20⟩,
    ⟨0x31004C, [(6, 0x4)], 0xFFFFFFFF, 0x0, 0x0, 0x0⟩,
    ⟨0x310064, [], 0x0, 0x0, 0xFFFFFFFF, 0x0⟩,
    ⟨0x310068, [], 0x0, 0x0, 0xFFFFFFFF, 0x0⟩,
    ⟨0x31006C, [], 0x0, 0x0, 0xFFFFFFFF, 0x0⟩ ]

/-- The registers of the WEAR pages that software writes or that reset non-zero. -/
def rowsWear : List RegRow :=
  [ ⟨0x320040, [], 0xFFFFFFFF, 0x0, 0x0, 0x0⟩,
    ⟨0x320044, [], 0x7FF, 0x0, 0x0, 0x0⟩,
    ⟨0x320048, [], 0xFF, 0x0, 0x0, 0xA6⟩,
    ⟨0x32004C, [], 0xFFFFFFFF, 0x0, 0x0, 0x117700⟩,
    ⟨0x320054, [], 0x0, 0x0, 0xFFFFFFFF, 0x0⟩,
    ⟨0x320100, [(192, 0x4)], 0xFFFF, 0x0, 0x0, 0x1900⟩,
    ⟨0x321040, [(16, 0x4)], 0xFFFFFFFF, 0x0, 0x0, 0x0⟩,
    ⟨0x321080, [], 0x3FFF, 0x0, 0x0, 0x0⟩ ]

/-- The registers of the TWIN pages that software writes or that reset non-zero. -/
def rowsTwin : List RegRow :=
  [ ⟨0x400040, [], 0x1, 0x0, 0x0, 0x1⟩,
    ⟨0x40004C, [], 0xFFFF, 0x0, 0x0, 0x0⟩,
    ⟨0x400054, [], 0xFFFFFFFF, 0x0, 0x0, 0x0⟩,
    ⟨0x400058, [], 0xFFFF, 0x0, 0x0, 0x0⟩,
    ⟨0x400064, [], 0x0, 0x0, 0xFFFFFFFF, 0x0⟩,
    ⟨0x400068, [], 0x0, 0x0, 0xFFFFFFFF, 0x0⟩,
    ⟨0x40006C, [], 0x0, 0x0, 0xFFFFFFFF, 0x0⟩,
    ⟨0x400070, [], 0x0, 0x0, 0xFFFFFFFF, 0x0⟩,
    ⟨0x400074, [], 0x0, 0x0, 0xFFFFFFFF, 0x0⟩,
    ⟨0x400078, [], 0x0, 0x0, 0xFFFFFFFF, 0x0⟩,
    ⟨0x40007C, [], 0x0, 0x0, 0xFFFFFFFF, 0x0⟩,
    ⟨0x401040, [(8, 0x10)], 0xFFFFFFFF, 0x0, 0x0, 0x0⟩,
    ⟨0x401044, [(8, 0x10)], 0xFFFFFFFF, 0x0, 0x0, 0x0⟩,
    ⟨0x401048, [(8, 0x10)], 0x1, 0x0, 0x0, 0x0⟩ ]

/-- The registers of the BIST pages that software writes or that reset non-zero. -/
def rowsBist : List RegRow :=
  [ ⟨0x410044, [], 0x3F, 0x0, 0x0, 0x0⟩,
    ⟨0x410048, [], 0x0, 0x0, 0x0, 0x18⟩,
    ⟨0x410058, [], 0x0, 0x0, 0xFFFFFFFF, 0x0⟩,
    ⟨0x41005C, [], 0xFFFFFFFF, 0x0, 0x0, 0x2FFF800⟩ ]

/-- The registers of the CONT pages that software writes or that reset non-zero. -/
def rowsCont : List RegRow :=
  [ ⟨0x500040, [], 0xFFFFFFFF, 0x0, 0x0, 0x7D000C8⟩,
    ⟨0x500044, [], 0xFFFFF, 0x0, 0x0, 0x42EE0⟩,
    ⟨0x500048, [], 0xFFFFFFFF, 0x0, 0x0, 0x0⟩,
    ⟨0x50004C, [], 0x0, 0xFFFFFFFF, 0x0, 0x0⟩,
    ⟨0x500100, [(2, 0x20)], 0xFFFF000F, 0x0, 0x0, 0x6400000⟩,
    ⟨0x500104, [(2, 0x20)], 0xFFFF, 0x0, 0x0, 0x0⟩,
    ⟨0x500108, [(2, 0x20)], 0xFFFF, 0x0, 0x0, 0x0⟩,
    ⟨0x50010C, [(2, 0x20)], 0x0, 0x0, 0xFFFFFFFF, 0x0⟩,
    ⟨0x500110, [(2, 0x20)], 0x0, 0x0, 0xFFFFFFFF, 0x0⟩ ]

/-- The registers of the REL pages that software writes or that reset non-zero. -/
def rowsRel : List RegRow :=
  [ ⟨0x510040, [], 0xFFFF, 0x0, 0x0, 0x0⟩,
    ⟨0x510048, [], 0x0, 0xFFFFFFFF, 0x0, 0x0⟩ ]

/-- The registers of the STOR pages that software writes or that reset non-zero. -/
def rowsStor : List RegRow :=
  [ ⟨0x520040, [], 0x38, 0x0, 0x0, 0x0⟩,
    ⟨0x520050, [], 0x7, 0x0, 0x0, 0x0⟩,
    ⟨0x520054, [], 0xFFFFFFFF, 0x0, 0x0, 0x0⟩,
    ⟨0x520058, [], 0xFF, 0x0, 0x0, 0x0⟩,
    ⟨0x52005C, [], 0xFFFFFFFF, 0x0, 0x0, 0x0⟩,
    ⟨0x520060, [], 0xFFFFFFFF, 0x0, 0x0, 0x0⟩,
    ⟨0x520068, [], 0x0, 0x0, 0xFFFFFFFF, 0x0⟩,
    ⟨0x52006C, [], 0x0, 0x0, 0xFFFFFFFF, 0x0⟩ ]

/-- The register rows of the 64 KiB of register space that holds offset `a`. -/
def rowsAt (a : Nat) : List RegRow :=
  match a / 0x10000 with
  | 0x0 => rowsMod
  | 0x1 => rowsHue
  | 0x2 => rowsEvc
  | 0x3 => rowsSpindle
  | 0x4 => rowsBobbin
  | 0x5 => rowsCht
  | 0x6 => rowsSeq
  | 0x7 => rowsLog
  | 0x10 => rowsPly
  | 0x20 => rowsStrm
  | 0x21 => rowsPtp
  | 0x22 => rowsTdm
  | 0x30 => rowsSup
  | 0x31 => rowsTag
  | 0x32 => rowsWear
  | 0x40 => rowsTwin
  | 0x41 => rowsBist
  | 0x50 => rowsCont
  | 0x51 => rowsRel
  | 0x52 => rowsStor
  | _ => []

/-- Whether offset `r` of an array with these dimensions is the first byte of one of its words. -/
def dimHit : List (Nat × Nat) → Nat → Bool
  | [], r => r == 0
  | (n, st) :: ds, r => decide (r / st < n) && dimHit ds (r % st)

/-- The row of the register word at `a`, if software writes it or it resets non-zero. -/
def rowAt (a : Nat) : Option RegRow :=
  (rowsAt a).find? (fun r => decide (r.off ≤ a) && dimHit r.dims (a - r.off))

/-- Reset value of the header word at offset `o` of block `b` (R42, R43, R56, R239, R341). -/
def hdrReset (b : Blk) (o : Nat) : Nat :=
  if o = 0 then (blkInfo b).1 * 0x10000 + (blkInfo b).2.1 * 0x100 + 1
  else if o = 4 then (match b with | .mod => 0xC0 | .spindle => 0x401080 | .sup => 0x800418 | _ => 0)
  else if o = 0x28 then (match b with | .hue h => h.val | _ => 0)
  else 0

/-- The words of H0's HUE page that reset otherwise than those of the other hues (R254). -/
def hue0Reset (a : Nat) : Nat :=
  if a = 0x10040 then 0x8000
  else if a = 0x10044 then 0xFFFFFF
  else if decide (0x10050 ≤ a) && decide (a ≤ 0x10064) then 0xFFFFFFFF
  else if a = 0x10068 then 31
  else 0

/-- Duration in ms, shut-down group and legacy coverage in 0.01 % of each BIST index (R422). -/
def bistTable (i : Nat) : Nat × Nat × Nat :=
  if i = 0 then (180, 5, 9870)
  else if i ≤ 6 then (180, 1, 9870)
  else if i ≤ 11 then (180, 2, 9870)
  else if i = 12 then (40, 3, 9910)
  else if i = 13 then (120, 3, 9780)
  else if i = 14 then (60, 3, 9820)
  else if i = 15 then (40, 3, 9840)
  else if i = 16 then (80, 3, 9790)
  else if i = 17 then (20, 3, 9900)
  else if i ≤ 19 then (150, 1, 9650)
  else if i = 20 then (20, 1, 9880)
  else if i ≤ 32 then (10, 1, 9950)
  else if i = 33 then (260, 2, 9730)
  else if i = 34 then (30, 2, 9860)
  else if i = 35 then (90, 2, 9810)
  else if i = 36 then (120, 3, 9540)
  else if i = 37 then (50, 3, 9890)
  else if i ≤ 39 then (20, 3, 9920)
  else if i = 40 then (60, 3, 9760)
  else (1400, 4, 9960)

/-- Reset values of BIST page 1: the legacy report of each index (R423, R432). -/
def bistReset (a : Nat) : Nat :=
  let o := a - 0x411040
  if 0x411040 ≤ a ∧ o / 16 < 42 ∧ o % 16 = 12 then (bistTable (o / 16)).1 * 0x10000 + (bistTable (o / 16)).2.2 else 0

/-- The reset value of the register word at offset `a` (R17). -/
def regReset (a : Nat) : W32 :=
  match blkAt a with
  | none => 0
  | some b =>
    if a % 0x1000 < 0x40 then BitVec.ofNat 32 (hdrReset b (a % 0x1000))
    else if a / 0x1000 = 0x10 then BitVec.ofNat 32 (hue0Reset a)
    else if a / 0x1000 = 0x411 then BitVec.ofNat 32 (bistReset a)
    else match rowAt a with
      | some r => BitVec.ofNat 32 r.reset
      | none => 0

end Sys2Proof.Machine
end

