-- ==== Sys2Proof/Machine/State.lean ====
section
/-! DEFINITION. The state of the SD192: plain data, one structure per block, every field with the rule
that names it. Register-visible values have one home, `Dev.regs`; what a register map gives no place
has a field of its own here. -/

namespace Sys2Proof.Machine

/-- Why the machine would stop. Nothing the manual describes stops the module as a whole, so no fault exists. -/
inductive Fault where
  deriving DecidableEq, Repr

/-- Why a command would have no meaning. -/
inductive Refusal where
  /-- raised by `exec` for a command this model has not reached; safe, since nothing is claimed of it -/
  | notModelled (mnemonic : String)
  deriving DecidableEq, Repr

/-! ### Time (R12, R14, R26) -/

/-- The frame period and the place in it. -/
structure Clk where
  /-- number of the frame period (R14) -/
  frame : Word
  /-- frame cycle, 0 to 122,879 (R26) -/
  cycle : Nat
  /-- the sample whose tick came last, 0 to 11 (R296) -/
  sample : Nat
  deriving DecidableEq, Repr

/-! ### The log (R273 to R278) -/

/-- One log record, without its number (R274). -/
structure LogRec where
  time : Word
  frame : Word
  typ : BitVec 16
  hue : BitVec 4
  sev : BitVec 2
  /-- the 32 payload bytes, little-endian -/
  payload : Nat
  arg : Word
  deriving DecidableEq, Repr

/-- Losses counted against one type and hue (R276). -/
structure LossCount where
  typ : BitVec 16
  count : Nat
  deriving DecidableEq, Repr

/-- The log block. -/
structure LogSt where
  /-- events queued, oldest first (R276) -/
  fifo : List LogRec
  /-- the record in progress, taken from the FIFO and refused by the ring, is tried again (R273) -/
  retry : Bool
  /-- losses not yet reported, by type, in the order of their first loss (R276) -/
  losses : List LossCount
  /-- losses of no queued type (R276) -/
  other : Nat
  lossFirst : Word
  lossLast : Word
  lossSev : BitVec 2
  /-- LOST records of a series still to be written (R277) -/
  series : List LogRec
  /-- the ring has accepted a record since the first loss not yet reported (R277) -/
  accepted : Bool
  /-- BAD_BOBBIN stands and was captured (R273) -/
  bad : Bool
  /-- frame period of the last crimson event, for the red LED (R456) -/
  crimson : Option Word
  deriving DecidableEq, Repr

/-! ### Control commit (R29, R398, R458) and the gateway (R60 to R68) -/

/-- Control changes on their way to a commit point. -/
structure CommitSt where
  /-- the last commit number given, or seen from the owner (R398) -/
  count : Nat
  /-- changes held and not yet applied, by number -/
  held : List Held
  /-- changes this module sent to the owner and has not had back (R398, R407) -/
  forwarded : List (ChangeOp × Option HankTag)
  /-- the last number applied (`TWIN.COMMIT`) -/
  applied : Nat
  deriving DecidableEq, Repr

/-- A Hank request awaiting its commit (R64, R67). -/
structure Waiting where
  /-- where the request came from, and its reply goes (R60) -/
  src : HankFrom
  seq : Word
  /-- the reply message up to its tag, still without COMMIT_FRAME -/
  reply : List Byte
  /-- frame at which its changes applied, once they did -/
  frame : Option Word
  /-- the seal that covers those changes was acknowledged, or the module was ALONE (R399) -/
  covered : Bool
  deriving DecidableEq, Repr

/-- The management gateway. -/
structure Gw where
  /-- the valid 256-bit keys, by hue (R68) -/
  keys : Table (Option Nat)
  /-- the last accepted SEQ, by hue (R64) -/
  last : Table Word
  /-- the cached reply, by hue -/
  cached : Table (Option (List Byte))
  /-- the request awaiting commit, by hue -/
  waiting : Table (Option Waiting)
  /-- a key COMMIT whose floor has not yet applied, by hue (R65) -/
  flooring : Table Bool
  deriving DecidableEq, Repr

/-! ### Channel table engine (R69 to R94) -/

/-- A cached channel-table entry (R74 to R78). -/
structure CacheEnt where
  index : Nat
  /-- the 128 bytes as fetched, little-endian -/
  data : Nat
  /-- delivered with EN = 0 (R72, R78) -/
  off : Bool
  torn : Bool
  /-- an invalidation is pending on this copy -/
  pend : Bool
  /-- a refetch of it was torn since, or it is itself a torn copy: it is tried again at the next refetch (R78) -/
  tried : Bool
  /-- the frame period in which it was fetched -/
  filled : Word
  /-- the frame in which it was last read, and its place in the order of reads -/
  lastFrame : Word
  order : Nat
  deriving DecidableEq, Repr

/-- One skein on the move (R88). -/
structure Move where
  skein : Nat
  src : Nat
  from_ : Nat
  to_ : Nat
  done : Bool
  /-- its migration trigger was given, and what its Spindle channel had completed by then (R88, R90) -/
  begun : Bool
  mark : Nat
  deriving DecidableEq, Repr

/-- The channel table engine and the frame schedule. -/
structure ChtSt where
  cache : List CacheEnt
  reads : Nat
  /-- the 192 route words (R71) -/
  routes : Table Word
  /-- the armed switch: its frame and the validated bank, PROG and mask per pair (R83) -/
  armed : Option (Word × List (W32 × Word))
  /-- the masks ACTIVE held for the previous frame (R88) -/
  prevMask : Table Word
  /-- the moves of the switch under way (R88) -/
  moves : List Move
  /-- moves of the last switch that were late and are still awaited from the twin (R90) -/
  tail : List Move
  /-- pairs that froze since the switch was armed (R91) -/
  froze : List Nat
  /-- skeins whose move became cold (R88, R91) -/
  cold : Word
  /-- the frame whose computation the present frame period holds, if it is computed (R24, R93) -/
  computing : Option Word
  /-- the CHT has come to its stop (R93) -/
  stopped : Bool
  /-- MIGRATION_LATE was logged for this stop (R91) -/
  stopLogged : Bool
  /-- the pairs that overran the frame being computed (R87) -/
  overran : List Nat
  /-- retries made of a torn miss, by pair (R78) -/
  tornTries : Table Nat
  deriving DecidableEq, Repr

/-! ### Bobbins, hues and the sequencer (R241 to R272) -/

/-- The bobbin manager. -/
structure BobSt where
  /-- contexts in the context cache, most recently used first (R245) -/
  cache : List Nat
  /-- the condition of each bound bobbin when last looked at (R250) -/
  cond : Table Bool
  /-- a withheld event-line spell is running (R250) -/
  spell : Table Bool
  /-- staged doorbell words: DATA0 to DATA15 and CONS_Q of port p of hue h, key 32 (256 h + p) + i (R251) -/
  staged : Table W32
  deriving DecidableEq, Repr

/-! ### The twin link (R386 to R412) -/

/-- A message on the Apdin link (R395). -/
inductive Msg where
  | hello (h : Hello)
  | beat (sample : Nat) (state : TwinState) (tick : Word)
  | link (acked : W32) (lanes : Nat)
  | inPkt (stream net : Nat) (frame : Word) (ts : W32) (payload : List Byte)
  | inTdm (port : Nat) (frame : Word) (words : List W32)
  | inDigest (frame digest : Word)
  | changeFwd (op : ChangeOp) (hank : Option HankTag)
  | change (c : Held)
  | seal (frame : Word) (num : Nat)
  | sealAck (frame : Word)
  | shadow (frame : Word) (words : List W32)
  | hash (frame : Word) (port : Bool) (index : Nat) (hash : Word)
  | sweep (frame : Word) (p : Nat) (words : List Word)
  | bulk (addr : Addr) (block : BulkBlock)
  | bulkFwd (addr : Nat) (data : Word)
  | state (st : TwinState) (hold silence : Bool)
  deriving DecidableEq, Repr

end Sys2Proof.Machine

namespace Sys2Proof.Config

/-- The payload words of an Apdin message: R395 says what they hold and not how they are laid out. -/
opaque apdinPayload : Machine.Msg → List (BitVec 64)

end Sys2Proof.Config

namespace Sys2Proof.Machine

/-- A message as it goes onto the link: its LSEQ, RETRANSMISSION, the FRAME it applies to, and what it carries (R393). -/
structure ApdinMsg where
  lseq : W32
  retx : Bool
  frame : Word
  msg : Msg
  deriving DecidableEq, Repr

/-- A message sent and not yet acknowledged, and how often it was sent (R394). -/
structure Unacked where
  sent : ApdinMsg
  sends : Nat
  deriving DecidableEq, Repr

/-- An output refused in the frame being transmitted: its index, its entry as STRM read it for the frame, and the samples
of its concealment (R27, R375, R404). -/
structure RefusedOut where
  index : Nat
  entry : Nat
  samples : List W32
  deriving DecidableEq, Repr

/-- The link and what this module knows of its peer. -/
structure TwinSt where
  linkUp : Bool
  /-- the lanes in use, one bit each (R392) -/
  lanes : Nat
  /-- the last LSEQ sent, the cumulative LSEQ received, and those received beyond it (R393, R394) -/
  txLseq : W32
  rxLseq : W32
  rxAhead : List W32
  /-- sent and not acknowledged, the least recently sent first (R394) -/
  unacked : List Unacked
  peerHello : Option Hello
  peer : TwinState
  peerHold : Bool
  peerSilent : Bool
  /-- level of the peer's BEAT line at the last test (R390) -/
  peerLine : Bool
  /-- the peer's BEAT line moved at the last test -/
  peerToggled : Bool
  /-- the samples whose BEAT messages have arrived since they could count (R390) -/
  beats : List Nat
  /-- the peer's ownership line was low at the last test (R387) -/
  peerOwnLow : Bool
  /-- tests in a row at which that line did not agree with the peer's STATE, at most 2 (R410) -/
  ownMiss : Nat
  /-- frames of the last takeover from a silent peer, and of the last divergence recorded; the sample of the last abdication of
  the watchdog (R411) -/
  silentAt : Option Word
  divergedAt : Option Word
  abdicatedAt : Option (Word × Nat)
  /-- a spell of misses of the line and of the link path is running (R390) -/
  lineSpell : Bool
  linkSpell : Bool
  /-- seals: the owner's last, whether acknowledged, and what the partner holds (R398) -/
  sealed : Option (Word × Nat)
  sealAcked : Option Word
  sealHeld : Option (Word × Nat)
  /-- the seal whose changes applied to the last frame -/
  sealApplied : Nat
  /-- a frame the partner withholds (R398, R401) -/
  withhold : Option Word
  ownDigest : Option (Word × Word)
  peerDigest : Option (Word × Word)
  /-- hashes sent and received for the frame being transmitted: key 2 × index + 1 for a port -/
  ownHash : Table (Option Word)
  peerHash : Table (Option Word)
  /-- the shadow words received, by output and sample: key 16 × output + sample (R404) -/
  shadow : Table W32
  shadowFrame : Option Word
  /-- the outputs that this module refuses in the frame being transmitted (R27, R375, R404) -/
  refused : List RefusedOut
  /-- registers swept by the twin: key 256 × pair + index (R372) -/
  sweep : Table Word
  sweepFrame : Option Word
  /-- frames counted since the split began, when the split-brain rules watch (R408) -/
  split : Option Nat
  witness : Bool
  /-- frames spent in JOINING, and the frame committed for the join (R405, R406) -/
  joinAge : Nat
  joinFrame : Option Word
  /-- blocks of the join image received, and all there are (R412) -/
  joinGot : Nat
  joinTotal : Nat
  /-- frames since the watchdog was refreshed (R391) -/
  wdog : Nat
  /-- both supplies are below lockout (R391) -/
  dying : Bool
  /-- tick time of the peer at sample 0 (R300, R395) -/
  peerTick : Word
  /-- EN was cleared: the link stops at the next tick (R412) -/
  stopping : Bool
  /-- the ACTIVE masks of the peer's pairs, as the changes committed for it leave them (R83, R373, R376) -/
  peerMask : Table Word
  /-- the switch armed in the peer: its frame and bank (R83) -/
  peerSwitch : Option (Word × List (W32 × Word))
  /-- pairs of the peer that are resynchronised from this module's, each with the memory as it was last sent (R376) -/
  copying : List (Nat × Table Byte)
  /-- the memory as a join image, or a forward at a tick, last left it at the joiner (R406) -/
  sent : Option (Table Byte)
  /-- the registers as that image, or a forward, last left them (R406) -/
  sentRegs : Table W32
  /-- the parts without an address of that image, as last sent (R65, R343, R406) -/
  sentItems : List BulkBlock
  /-- mismatch that keeps a joiner joining was recorded (R405) -/
  joinBad : Bool
  deriving DecidableEq, Repr

/-- This module's twin role (R387, R389, R405): changed only by the events of R405. -/
structure Role where
  state : TwinState
  /-- the own ownership line is driven low (R387) -/
  ownLow : Bool
  /-- the heartbeat runs (R389) -/
  beating : Bool
  /-- level of the own BEAT line -/
  beatLevel : Bool
  /-- QUIET hold in force (R405) -/
  hold : Bool
  deriving DecidableEq, Repr

/-! ### Stream I/O, TDM and network time (R280 to R308) -/

/-- One sample time of a stream as filed on a leg (R285). -/
structure Filed where
  /-- filed after the receive cut-off of its input frame: it does not count (R285) -/
  late : Bool
  samples : List W32
  deriving DecidableEq, Repr

/-- The concealment state of an input or sense channel (R287). -/
structure Conceal where
  /-- the last input frame received complete -/
  r : List W32
  /-- samples concealed in the present run -/
  j : Nat
  /-- concealed in the input frame closed last -/
  now : Bool
  deriving DecidableEq, Repr

/-- The source address of a packet (R292). -/
structure NetAddr where
  mac : Nat
  ip : W32
  deriving DecidableEq, Repr

/-- What stands before the RTP header of a media packet (R280, R290, R306). -/
structure MediaHead where
  src : NetAddr
  dst : W32
  /-- the address whose station takes the packet: the destination, or the gateway beyond the subnet -/
  hop : W32
  /-- tag control information: PCP and VLAN_ID, with VLAN_EN -/
  vlan : Option Nat
  dontFragment : Bool
  ident : Nat
  ttl : Nat
  dscp : Nat
  srcPort : Nat
  dstPort : Nat
  checksum : Nat
  deriving DecidableEq, Repr

/-- A membership report or a leave (R289): in IGMPv3 the filter of the group that now stands; the older versions send
none. -/
structure IgmpMsg where
  version : Nat
  leave : Bool
  group : W32
  exclude : Bool
  sources : List W32
  deriving DecidableEq, Repr

/-- What every PTP message carries (R300, R307): the sender's address, the domain and the log2 of its interval. -/
structure PtpHead where
  src : NetAddr
  domain : Byte
  interval : Byte
  deriving DecidableEq, Repr

/-- A packet sent on a network (R289, R290, R292, R300, R303). -/
inductive NetOut where
  | media (net stream : Nat) (frame : Word) (head : MediaHead) (rtp : List Byte)
  | igmp (net : Nat) (src : NetAddr) (msg : IgmpMsg)
  | arpReply (net : Nat) (ip : W32) (mac : Nat)
  | ptpAnnounce (net : Nat) (head : PtpHead) (fields : Announce)
  | ptpSync (net : Nat) (head : PtpHead) (time : Word)
  | ptpDelayReq (net : Nat) (head : PtpHead)
  deriving DecidableEq, Repr

/-- The media ports and TDM ports. -/
structure StrmSt where
  /-- samples filed: key (leg + 4 × stream) + 512 × media index; legs 0, 1 own A, B and 2, 3 the peer's (R285, R286) -/
  filed : Table Filed
  /-- the receive cut-off of this period has passed (R285) -/
  cut : Bool
  conceal : Table Conceal
  /-- binding conflicts standing: the slot, the lower and the higher entry index (R294) -/
  conflicts : List (Nat × Nat × Nat)
  /-- sense words captured in this period and the last: key ((parity × 12 + port) × 16 + slot) × 16 + sample (R297) -/
  capture : Table W32
  /-- sense words of the owner, by port, as IN_TDM brought them for the frame given (R298) -/
  fwdTdm : Table (List W32)
  fwdFrame : Table (Option Word)
  /-- period whose capture of a port counts: key (parity × 12) + port; the module was OWNER or ALONE throughout (R298) -/
  capFrame : Table (Option Word)
  /-- TDM port buffers: key (((frame mod 4) × 12 + port) × 16 + slot) × 16 + sample (R25, R297) -/
  tdmBuf : Table W32
  /-- the words the ports drive in the present TDM frame: key port × 16 + slot -/
  tdmOut : Table W32
  /-- BCLK periods for which FSYNC is high in the present TDM frame, by port: 1, 32 for all of slot 0, or none where the
  port does not drive (R296) -/
  tdmFsync : Table Nat
  /-- the ports that drove their lines in the present TDM frame (R308) -/
  driving : Table Bool
  /-- port k is let go at its next TDM frame (R299) -/
  tdmStopped : Table Bool
  deriving DecidableEq, Repr

/-- Network time. -/
structure PtpSt where
  /-- consecutive Sync messages within 100 ns (R301) -/
  streak : Nat
  /-- filtered offset, ns -/
  filt : Int
  /-- REFCLK correction, ppb -/
  freq : Int
  /-- mean path delay by network -/
  delay : Table Int
  /-- a Delay_Req waits for its answer, by network -/
  delayReq : Table Bool
  /-- the best Announce by network (R303) -/
  best : Table (Option Announce)
  /-- this module is the grandmaster (R303) -/
  gm : Bool
  /-- Sync sent as grandmaster, by network -/
  syncSeq : Table Nat
  /-- frames have been computed since start-up (R302) -/
  running : Bool
  /-- the time was set by the step before the first frame (R302) -/
  stepped : Bool
  /-- steps committed that the next tick applies (R302, R307) -/
  steps : List Int
  deriving DecidableEq, Repr

/-! ### Spindle DMA (R213 to R240) -/

/-- A data element of a run, or a pair, as read from its list (R216, R217). -/
structure SpElem where
  src : Nat
  dst : Nat
  len : Nat
  /-- bytes requested, bytes written and acknowledged -/
  read : Nat
  acked : Nat
  /-- bytes read and not yet in a write request, and where they go -/
  held : List Byte
  heldAt : Nat
  /-- the error met on this element: it stops the channel when every earlier element is complete (R234) -/
  bad : Option Nat
  evt : Bool
  deriving DecidableEq, Repr

/-- A fabric request of a channel (R214). -/
structure SpReq where
  /-- a list read -/
  list : Bool
  /-- the element's number in the run -/
  elem : Nat
  addr : Nat
  len : Nat
  data : List Byte
  /-- the initiator hue it carries (R39, R215) -/
  hue : Nat
  /-- false once the run it belongs to was dropped or stopped -/
  live : Bool
  deriving DecidableEq, Repr

/-- The engines' view of a channel; its registers are in the register pages. -/
structure SpChan where
  /-- elements not yet complete; the first has number `done` -/
  elems : List SpElem
  done : Nat
  listPtr : Nat
  listReads : Nat
  listDone : Bool
  /-- the first member of a pair, waiting for the second (R218) -/
  first : Option (Nat × Nat × Bool)
  /-- the next address of the contiguous side -/
  contig : Nat
  /-- the lists of the active set since its start, each with the destination it went on from (R235) -/
  runs : List (Nat × Nat)
  /-- elements released so far; in immediate mode, and after a start trigger, all are -/
  released : Nat
  free : Bool
  reads : List SpReq
  writes : List SpReq
  half : Bool
  /-- the code with which the channel stops once every outstanding request has answered or timed out (R234) -/
  stop : Option Nat
  /-- reads and writes that timed out and have not answered since (R234) -/
  lateReads : Nat
  lateWrites : Nat
  /-- requests in flight at a SOFT_RST, whose responses are discarded (R238) -/
  goneReads : Nat
  goneWrites : Nat
  /-- transfers completed (R227) -/
  fulls : Nat
  /-- RESTART_LO as written (R235) -/
  restart : Nat
  deriving DecidableEq, Repr

/-- The Spindle's engines. -/
structure SpSt where
  chans : Table SpChan
  lastRd : Table Nat
  lastWr : Table Nat
  /-- trigger lines pulsed and not yet sampled -/
  pulses : List Nat
  /-- the frame or sample in which a timer pulsed last: twice its number, plus UNIT (R232) -/
  timers : Table (Option Nat)
  deriving DecidableEq, Repr

/-! ### Storage (R414 to R433) -/

/-- A storage command with the arguments it was started with (R433). -/
structure StorOp where
  op : Nat
  addr : Nat
  target : Nat
  len : Nat
  deriving DecidableEq, Repr

/-- The storage block beyond its registers: the message store and the command in progress. -/
structure StorSt where
  /-- the items of the message store, header and samples (R429) -/
  items : Table (Option (List Byte))
  /-- the operation that runs, if one does (R433) -/
  op : Option StorOp
  /-- log records written to the ring and not yet copied, oldest first, and the log area, by SEQNO (R428) -/
  logPend : List (Nat × List Byte)
  logArea : Table (Option (List Byte))
  deriving DecidableEq, Repr

/-! ### Core pairs (R95 to R186) -/

/-- How an operation changes an accumulator (R138, R139, R142). -/
inductive AccOp where
  | add (re im : Int)
  | set (re im : Int)
  | raw (part : Nat) (v : Word)
  deriving DecidableEq, Repr

/-- What a fixed-latency operation, or a move, does when it lands (R111, R113). -/
inductive Eff where
  /-- a port takes a value -/
  | port (id : Nat) (v : Word)
  /-- accumulator `k` of CMAC `c` -/
  | acc (c k : Nat) (op : AccOp) (sat : Bool)
  /-- flags are ORed into the STAT of CMAC `c`, or a move clears it (R143) -/
  | stat (c : Nat) (f : Nat)
  | statClear (c : Nat)
  /-- flags are ORed into FSTAT, or a move writes it (R156) -/
  | flags (f : Nat)
  | fstat (v : Word)
  /-- a store of LSU `u` reaches local memory (R111, R170) -/
  | store (u : Nat) (addr : Nat) (data : List Byte)
  deriving DecidableEq, Repr

/-- An effect on its way: the bundle it was triggered in, and the first bundle that sees it (R111). -/
structure Landing where
  bundle : Nat
  due : Nat
  eff : Eff
  deriving DecidableEq, Repr

/-- A write to the synchronised class (R123): the bundle from which it governs, the CSR, its region and value. -/
structure SyncWr where
  due : Nat
  port : Nat
  sel : Nat
  v : Word
  deriving DecidableEq, Repr

/-- An iterative operation of DIV or of the FPU (R115, R151): its destination, result, flags, the cycle of `CYCLE` at
which it lands, and the effects on their way to its destination when it was triggered, which are older (R113). -/
structure IterOp where
  dst : Nat
  v : Word
  flags : Nat
  due : Nat
  older : List Landing
  deriving DecidableEq, Repr

/-- The bobbin operations of a core (R246). -/
inductive BobKind where
  | enq | deq | peek | occ
  deriving DecidableEq, Repr

/-- What an EXT operation in progress does (R172). -/
inductive ExtWork where
  /-- `attr` is the region attribute at the trigger: 0 uncached, 1 write-through, 2 write-back -/
  | load (addr size : Nat) (signed : Bool) (attr : Nat)
  /-- a line operation on the data cache over a range; 0 clean, 1 invalidate, 2 both -/
  | range (kind lo hi count : Nat)
  | irange (lo hi : Nat)
  /-- the line goes to the way that FILL_WAY named at the trigger (R181) -/
  | ifill (addr way : Nat)
  /-- the line fetch of a write-back store that missed (R174, R178) -/
  | fill (line : Nat)
  /-- `run`: the manager took operations when it was triggered (R279) -/
  | bobbin (k : BobKind) (q : Nat) (entry : List Byte) (run : Bool)
  deriving DecidableEq, Repr

/-- An EXT operation in progress, scoreboarded on its destination (R115, R172). -/
structure ExtOp where
  dst : Nat
  /-- address of the bundle that triggered it (R178) -/
  pc : Nat
  work : ExtWork
  deriving DecidableEq, Repr

/-- A write-buffer entry (R175). -/
structure WbEnt where
  addr : Nat
  /-- bytes and their addresses, in the order in which they were stored -/
  data : List (Nat × Byte)
  /-- an uncached store: never merged -/
  uncached : Bool
  pc : Nat
  /-- a line that left the cache with an error that cannot be corrected: its write fails (R178, R370) -/
  bad : Bool
  deriving DecidableEq, Repr

/-- A data-cache line (R174). -/
structure DLine where
  addr : Nat
  data : List Byte
  dirty : Bool
  deriving DecidableEq, Repr

/-- An interrupt entry in progress (R128, R130): the source, its level and vector, and whether the EVC has confirmed it. -/
structure Entry where
  src : Nat
  level : Nat
  vector : Nat
  confirmed : Bool
  deriving DecidableEq, Repr

/-- A logical core pair (R364): one copy of the state both plies hold, and what ply B holds otherwise. -/
structure Core where
  /-- every register, operand port, result port and CSR by port ID (R97, R126) -/
  ports : Table Word
  /-- registers where ply B holds a different word (R364, R372) -/
  plyB : Table (Option Word)
  /-- accumulator parts: key 8 × unit + 2 × number, the imaginary part one above (R135) -/
  acc : Table (BitVec 72)
  /-- effects on their way, in the order of their triggers (R111, R113) -/
  pipe : List Landing
  /-- the cycle of `CYCLE` in which the effects due for the next bundle land: the one after the last issue (R111) -/
  landAt : Nat
  /-- address of the next bundle (R98) -/
  pc : Nat
  /-- save slots: key 2 × level the return address, one above the status (R131) -/
  save : Table Word
  /-- region CSRs: key 4 × region, then BASE, LIMIT, ATTR (R173) -/
  regions : Table Word
  /-- pending writes to the synchronised class (R123) -/
  sync : List SyncWr
  /-- loop states moved to LSTATE and not yet in effect, by level (R186) -/
  lstate : Table (Option Word)
  /-- the bundle count at which a loop level was armed, plus 1, until it is first evaluated (R184) -/
  armed : Table Nat
  div : Option IterOp
  fpi : Option IterOp
  ext : List ExtOp
  /-- G registers that scoreboarded results reached since the last cycle of issue (R109) -/
  landed : List Nat
  /-- bytes with an ECC upset, true for one that cannot be corrected: local memory by its offset, a data-cache place
  from 0x80000 and an instruction-cache place from 0x100000 on, 64 bytes each (R164, R370; log entry 129) -/
  upsets : List (Nat × Bool)
  /-- bytes of local memory, by offset, where the plies' copies differ (R364, R367, R375) -/
  plyMem : List Nat
  /-- errors corrected as lines were written back, and not yet in ECC_CORR_COUNT (R370) -/
  corrected : Nat
  wb : List WbEnt
  /-- a FENCE holds the next bundle, and the error its writes met (R176, R178) -/
  fence : Bool
  fenceErr : Option (Nat × Nat)
  /-- a WAIT in progress, with its timeout in PCLK cycles, 0 for none (R205) -/
  waiting : Option Nat
  /-- PCLK cycles of that wait that WAIT_CYCLES and CYCLE have counted so far (R206) -/
  passed : Nat
  entry : Option Entry
  /-- prefetched bundles: address and bits (R118) -/
  queue : List (Nat × Nat)
  /-- the fetch waits for the line at this address (R180) -/
  miss : Option Nat
  /-- instruction-cache lines: key 512 × way + set; address and bits (R180) -/
  icache : Table (Option (Nat × Nat))
  /-- data-cache lines: key 128 × way + set (R174) -/
  dcache : Table (Option DLine)
  /-- the direction predictor's counters and the return stack, newest first (R119, R121) -/
  predictor : Table Nat
  returns : List Nat
  deriving DecidableEq, Repr

/-! ### Event controller (R187 to R212) -/

/-- The event controller beyond its registers. -/
structure EvcSt where
  /-- the source presented to each core and not yet confirmed (R190) -/
  presented : Table (Option Nat)
  /-- sources set again while presented (R192, R196) -/
  again : List Nat
  /-- pulses captured and not yet seen by RAW (R191) -/
  pulses : List Nat
  /-- STILL was raised in this spell (R207) -/
  fired : Bool
  /-- the PCLK part sleeps (R209) -/
  asleep : Bool
  /-- watched sources whose inputs have been high since the watch began (R210) -/
  aonHigh : List Nat
  /-- watched sources pulsed since the watch began (R210) -/
  aonPulse : List Nat
  deriving DecidableEq, Repr

/-! ### Two-ply lockstep (R364 to R385) -/

/-- The lockstep state of a pair beyond its PLY page. -/
structure PlySt where
  /-- frames of the last three faults, newest first (R379) -/
  faults : List Word
  /-- latent divergences to resolve at the next tick, in the order of the sweep: port, ply A's and ply B's word (R373) -/
  latent : List (Nat × Word × Word)
  /-- frame of the freeze, while the pair is not rejoined (R376, R377) -/
  frozen : Option Word
  /-- the reset and the injection that follow a freeze, release or restart are done (R371, R376) -/
  resetDone : Bool
  /-- the injection of R371 runs -/
  injecting : Bool
  /-- the twin's local memory has been copied (R376) -/
  copied : Bool
  /-- the twin's CPn completed its frame and its words were swept in this period (R376) -/
  sweepFrame : Option Word
  /-- period in which the twin's CPn signalled completion (R376) -/
  twinDone : Option Word
  /-- a cold restart has been triggered in the reload channel, and the transfers that channel had completed then (R378) -/
  reloading : Bool
  reloadMark : Nat
  /-- the pair was quarantined because its ACTIVE masks differed: its skeins move with SRC 0 taken as 1 (R377) -/
  mismatched : Bool
  /-- bytes of the output buffer that Spindle reads of the local window have filled since OUTPUT_OPEN, and the frame whose
  samples had all been read at the freeze (R375) -/
  outRead : List (Nat × Nat)
  spared : Option Word
  /-- a rejoin handler runs after a release from quarantine (R380) -/
  released : Bool
  /-- the pair's self-test passed since its quarantine (R380) -/
  tested : Bool
  /-- its self-test has begun since its quarantine (R421) -/
  tried : Bool
  /-- frames refused since the freeze (R376) -/
  refused : Nat
  /-- the frame computed next is the rejoin frame (R86, R376) -/
  rejoin : Bool
  /-- that rejoin, or the recovery under way, is a cold restart (R378) -/
  cold : Bool
  deriving DecidableEq, Repr

/-! ### Power, self-test, contacts and relays (R413 to R456) -/

/-- The BIST block beyond its registers. -/
structure BistSt where
  /-- frame at which the shut-down was committed, and the group that runs -/
  shutFrame : Word
  group : Nat
  /-- indices that passed at this shut-down (R419) -/
  pass : Nat
  /-- indices under test -/
  testing : List Nat
  /-- the golden row for this silicon, if the image has one: full and quick values (R415, R417) -/
  golden : Option (List Word)
  quick : Option (List Word)
  /-- a wake event is held until the standby entry completes (R427) -/
  wakeHeld : Bool
  /-- the pages and internal state the retention area holds (R426) -/
  saved : Option (Table W32)
  savedChans : List (Nat × Bool × Bool)
  savedEn : List Nat
  /-- indices under the quick logic test (R417, R420) -/
  tried : Nat
  /-- the supply is up (R428, R456), and the boot ROM has run since the last reset (R416) -/
  powered : Bool
  booted : Bool
  /-- the processing rate in the configuration, read at start-up: 48 kHz (R33) -/
  cfg48 : Bool
  /-- no valid image was found (R414) -/
  bootFailed : Bool
  /-- frames since power good, while the first transmitted frame is still to come (R416) -/
  starting : Option Nat
  /-- PMODE as the hold-up began (R428, R431) -/
  heldFrom : Nat
  deriving DecidableEq, Repr

/-- A contact input (R448). -/
structure Contact where
  /-- the class of the last readings, and how many in a row gave it -/
  cls : Nat
  run : Nat
  deriving DecidableEq, Repr

/-- An RS-485 port (R452). -/
structure Serial where
  /-- characters of the open receive entry, and its flags -/
  rx : List Byte
  flags : Nat
  deriving DecidableEq, Repr

/-- What a port puts on its pair: its driver on, a character with its parity bit, its stop bits and the baud divisor, and the
driver off after the last stop bit of an entry (R451). -/
inductive SerialOut where
  | driverOn (port : Nat)
  | char (port : Nat) (data : Byte) (parity : Option Bool) (stopBits baudDiv : Nat)
  | driverOff (port : Nat)
  deriving DecidableEq, Repr

/-- Contacts and relays (R447 to R455). -/
structure ContSt where
  inputs : Table Contact
  /-- the thresholds in force before the first threshold write of a millisecond, with that millisecond (R455) -/
  thrAt : Option (Word × Nat × Nat × Nat)
  ports : Table Serial
  /-- ports that have finished the character in progress since EN was cleared (R453) -/
  finished : List Nat
  /-- drivers switched on (R450, R454) -/
  relOn : Nat
  /-- drivers switched off by an over-current trip until OUT goes 0 and 1 again (R450) -/
  tripped : Nat
  deriving DecidableEq, Repr

/-! ### The whole machine -/

/-- What the module has sent to the outside world, newest first. -/
structure OutSt where
  apdin : List ApdinMsg
  /-- replies of the gateway, each with the request it answers by source (R60) -/
  hank : List (HankFrom × List Byte)
  net : List NetOut
  /-- what the RS-485 ports have sent (R451, R452) -/
  serial : List SerialOut
  deriving DecidableEq, Repr

/-- The device: every block but the twin role and the queue. -/
structure Dev where
  clk : Clk
  /-- every register of the register pages, by offset from 0x00_4000_0000 (R37, R40) -/
  regs : Table W32
  /-- shared SRAM, local memories, NOR windows and DRAM, by system address (R37) -/
  mem : Table Byte
  /-- bytes of SRAM or DRAM whose ECC cannot be corrected, as the bobbin manager meets them (R247, R279; log entry 133) -/
  eccBad : List Nat
  /-- timestamp latches: key 32 × offset + path (R49) -/
  latch : Table (Option W32)
  /-- the model's own counter of free values (R18) -/
  freeCtr : Nat
  log : LogSt
  sp : SpSt
  commit : CommitSt
  gw : Gw
  cht : ChtSt
  bob : BobSt
  seq : SeqSt
  stor : StorSt
  strm : StrmSt
  ptp : PtpSt
  twin : TwinSt
  cores : Table Core
  evc : EvcSt
  ply : Table PlySt
  sup : SupSt
  tag : TagSt
  wear : WearSt
  bist : BistSt
  cont : ContSt
  out : OutSt
  deriving DecidableEq, Repr

/-- The machine's state: the queue of commands, the twin role and the device. -/
structure State where
  pending : List Instr
  role : Role
  dev : Dev
  deriving DecidableEq, Repr

/-! ### Reset -/

/-- A channel the engines hold nothing of. -/
def SpSt.reset : SpSt := { chans := [], lastRd := [], lastWr := [], pulses := [], timers := [] }

/-- The log, empty (R276). -/
def LogSt.reset : LogSt :=
  { fifo := [], retry := false, losses := [], other := 0, lossFirst := 0, lossLast := 0, lossSev := 0, series := [],
    accepted := false, bad := false, crimson := none }

/-- The channel table engine, stopped, every cached entry invalid (R79, R93). -/
def ChtSt.reset : ChtSt :=
  { cache := [], reads := 0, routes := [], armed := none, prevMask := [], moves := [], tail := [], froze := [],
    cold := 0, computing := none,
    stopped := true, stopLogged := false, overran := [], tornTries := [] }

/-- The bobbin manager with nothing cached or staged. -/
def BobSt.reset : BobSt := { cache := [], cond := [], spell := [], staged := [] }

/-- The sequencer with every slot, zone, player and chime generator free. -/
def SeqSt.reset : SeqSt :=
  { anns := [], zones := [], players := [], chimes := [], nextOrder := 0, cmdBad := [], cplBad := [], stopped := false,
    samples := [], advanced := none, resetAnns := [] }

/-- The twin block with no link and nothing known of a peer. -/
def TwinSt.reset : TwinSt :=
  { linkUp := false, lanes := 0, txLseq := 0, rxLseq := 0, rxAhead := [], unacked := [], peerHello := none, peer := .startUp,
    peerHold := false, peerSilent := false, peerLine := false, peerToggled := false, beats := [],
    peerOwnLow := false, ownMiss := 0, silentAt := none, divergedAt := none, abdicatedAt := none,
    lineSpell := false, linkSpell := false, sealed := none, sealAcked := none, sealHeld := none, sealApplied := 0,
    withhold := none, ownDigest := none, peerDigest := none, ownHash := [], peerHash := [], shadow := [],
    shadowFrame := none, refused := [], sweep := [], sweepFrame := none, split := none, witness := false, joinAge := 0,
    joinFrame := none, joinGot := 0, joinTotal := 0, wdog := 0, dying := false, peerTick := 0, stopping := false, peerMask := [],
    peerSwitch := none, copying := [],
    sent := none, sentRegs := [], sentItems := [], joinBad := false }

/-- The media and TDM ports with nothing received. -/
def StrmSt.reset : StrmSt :=
  { filed := [], cut := false, conceal := [], conflicts := [], capture := [], fwdTdm := [], fwdFrame := [],
    capFrame := [], tdmBuf := [], tdmOut := [], tdmFsync := [], driving := [], tdmStopped := [] }

/-- Network time in free run (R300). -/
def PtpSt.reset : PtpSt :=
  { streak := 0, filt := 0, freq := 0, delay := [], delayReq := [], best := [], gm := false, syncSeq := [],
    running := false, stepped := false, steps := [] }

/-- The event controller with nothing presented. -/
def EvcSt.reset : EvcSt :=
  { presented := [], again := [], pulses := [], fired := false, asleep := false, aonHigh := [], aonPulse := [] }

/-- The supervision engine with no line supervised. -/
def SupSt.reset : SupSt := { lines := [], night := none, ended := none, phase := 0, stale := [] }

/-- The tag block with no lane at work. -/
def TagSt.reset : TagSt := { queue := [], lanes := [], sigs := [], writes := [], dueDay := none }

/-- The wear block with no model table. -/
def WearSt.reset : WearSt := { lines := [], models := [], next := [], recs := [], stepped := none }

/-- The BIST block with no test running. -/
def BistSt.reset : BistSt :=
  { shutFrame := 0, group := 0, pass := 0, testing := [], golden := none, quick := none, wakeHeld := false,
    saved := none, savedChans := [], savedEn := [], tried := 0, powered := true, booted := false,
    cfg48 := false, bootFailed := false, starting := none,
    heldFrom := 0 }

/-- Contacts unread and every driver off (R450). -/
def ContSt.reset : ContSt := { inputs := [], thrAt := none, ports := [], finished := [], relOn := 0, tripped := 0 }

/-- Control changes: none. -/
def CommitSt.reset : CommitSt := { count := 0, held := [], forwarded := [], applied := 0 }

/-- The gateway with no key. -/
def Gw.reset : Gw := { keys := [], last := [], cached := [], waiting := [], flooring := [] }

/-- The device after reset. -/
def Dev.reset : Dev :=
  { clk := { frame := 0, cycle := 0, sample := 0 }
    regs := []
    mem := []
    eccBad := []
    latch := []
    freeCtr := 0
    log := .reset
    sp := .reset
    commit := .reset
    gw := .reset
    cht := .reset
    bob := .reset
    seq := .reset
    stor := { items := [], op := none, logPend := [], logArea := [] }
    strm := .reset
    ptp := .reset
    twin := .reset
    cores := []
    evc := .reset
    ply := []
    sup := .reset
    tag := .reset
    wear := .reset
    bist := .reset
    cont := .reset
    out := { apdin := [], hank := [], net := [], serial := [] } }

/-- The machine right after reset: no command waits, and the module is in start-up (R405). -/
def State.reset : State :=
  { pending := []
    role := { state := .startUp, ownLow := false, beating := false, beatLevel := false, hold := false }
    dev := .reset }

end Sys2Proof.Machine
end

