-- ==== Sys2Proof/Machine/Ops.lean ====
section
/-! DEFINITION. The named operations every block uses: registers and counters (R16 to R19, R51), memory
(R37, R50), time (R14, R15), free values (R18), error capture and events (R43 to R45), the log's queue
(R274 to R278, R457), and the enable states of a block (R53). -/

namespace Sys2Proof.Machine

/-! ### Repetition -/

/-- Apply `f` for each element of a list, in order. -/
def forEach {α : Type} (l : List α) (f : α → Dev → Dev) (d : Dev) : Dev := l.foldl (fun x a => f a x) d

/-- Apply `f` for `0, …, n-1`, in order. -/
def forN (n : Nat) (f : Nat → Dev → Dev) (d : Dev) : Dev := forEach (List.range n) f d

/-- Apply `f` when the condition holds. -/
def doIf (c : Bool) (f : Dev → Dev) (d : Dev) : Dev := if c then f d else d

/-! ### Registers -/

/-- The register word at offset `a`. -/
def rdw (d : Dev) (a : Nat) : W32 := tget regReset d.regs a

/-- The register word at offset `a` set. -/
def wrw (d : Dev) (a : Nat) (v : W32) : Dev := { d with regs := tset regReset d.regs a v }

/-- The value of a field. -/
def rd (d : Dev) (f : Fld) : Nat := bits (rdw d f.off).toNat f.hi f.lo

/-- A field set; the other bits of its word stay. -/
def wr (d : Dev) (f : Fld) (v : Nat) : Dev :=
  wrw d f.off (BitVec.ofNat 32 (putBits (rdw d f.off).toNat f.hi f.lo v))

/-- A one-bit field as a truth value. -/
def flag (d : Dev) (f : Fld) : Bool := rd d f == 1

/-- The largest value of a field. -/
def fldMax (f : Fld) : Nat := 2 ^ (f.hi + 1 - f.lo) - 1

/-- A counter raised by `n`; it stays at its largest value (R51). -/
def incN (d : Dev) (f : Fld) (n : Nat) : Dev := wr d f (min (rd d f + n) (fldMax f))

/-- A counter raised by one (R51). -/
def inc (d : Dev) (f : Fld) : Dev := incN d f 1

/-- A 64-bit value held in a low and a high register. -/
def rd64 (d : Dev) (lo hi : Fld) : Nat := rd d hi * 2 ^ 32 + rd d lo

/-- A low and a high register set from a 64-bit value. -/
def wr64 (d : Dev) (lo hi : Fld) (v : Nat) : Dev := wr (wr d lo (v % 2 ^ 32)) hi (v / 2 ^ 32)

/-! ### Memory -/

/-- What a byte of memory reads as before anything writes it: the boot ROM's contents, erased NOR, and
zero elsewhere (the manual gives no contents of SRAM and DRAM at power-on: DESIGN CHOICE, unsafe, log entry 2). -/
def memReset (a : Nat) : Byte :=
  if a < 0x20000 then Config.bootRom a
  else if decide (0x08000000 ≤ a) && decide (a < 0x10000000) then 0xFF
  else 0

/-- One byte of memory. -/
def rdB (d : Dev) (a : Nat) : Byte := tget memReset d.mem a

/-- One byte of memory set. -/
def wrB (d : Dev) (a : Nat) (v : Byte) : Dev := { d with mem := tset memReset d.mem a v }

/-- The `n` bytes from address `a`. -/
def rdBytes (d : Dev) (a n : Nat) : List Byte := (List.range n).map (fun i => rdB d (a + i))

/-- The bytes of a table written from address `a` on. -/
def putBytes (m : Table Byte) : Nat → List Byte → Table Byte
  | _, [] => m
  | a, b :: r => putBytes (tset memReset m a b) (a + 1) r

/-- The bytes of a list written from address `a` on. -/
def wrBytes (d : Dev) (a : Nat) (l : List Byte) : Dev := { d with mem := putBytes d.mem a l }

/-- The little-endian value of the `n` bytes at `a` (R10). -/
def rdN (d : Dev) (a n : Nat) : Nat := ofLe (rdBytes d a n)

/-- The low `n` bytes of `v` written little-endian at `a` (R10). -/
def wrN (d : Dev) (a n v : Nat) : Dev := wrBytes d a (leBytes n v)

/-- Local memory of pair `p` begins here (R37). -/
def localBase (p : Nat) : Nat := 0x20000000 + p * 0x01000000

/-- An address in shared SRAM (R37). -/
def inSram (a : Nat) : Bool := decide (0x10000000 ≤ a) && decide (a < 0x11800000)

/-- Whether any of `n` bytes at `a` has ECC that cannot be corrected. -/
def eccHit (d : Dev) (a n : Nat) : Bool := d.eccBad.any (fun x => decide (a ≤ x) && decide (x < a + n))

/-- An address in DRAM (R37). -/
def inDram (a : Nat) : Bool := decide (0x100000000 ≤ a) && decide (a < 0x300000000)

/-- An address in the local memory of a pair (R37). -/
def inLocal (a : Nat) : Bool :=
  decide (0x20000000 ≤ a) && decide (a < 0x2C000000) && decide (a % 0x01000000 < 0x80000)

/-- An address in the boot ROM or a NOR window (R37). -/
def inRom (a : Nat) : Bool :=
  decide (a < 0x20000) || (decide (0x08000000 ≤ a) && decide (a < 0x10000000))

/-- An address in a memory range that is read and written (R37). -/
def inRam (a : Nat) : Bool := inSram a || inDram a || inLocal a

/-- The bobbin context table, `CTX_BASE` (R241). -/
def ctxBase (d : Dev) : Nat := rd d bobCtxBase * 0x10000

/-- The channel table, `TABLE_BASE` (R69). -/
def chtBase (d : Dev) : Nat := rd d chtTableBase * 0x10000

/-- The supervision results area, `RES_BASE` (R332). -/
def supArea (d : Dev) : Nat := rd d supResBase * 256

/-- Whether two address ranges share a byte. -/
def overlaps (a n b m : Nat) : Bool := decide (a < b + m) && decide (b < a + n) && decide (0 < n)

/-- The block whose own table a memory write by anyone else would touch (R241, R332). -/
def guardOf (d : Dev) (a n : Nat) : Option Blk :=
  if overlaps a n (ctxBase d) 0x100000 then some .bobbin
  else if overlaps a n (supArea d) 0x30000 then some .sup
  else none

/-! ### The state of a pair (R368 to R379) -/

/-- `PSTATE.STATE` (R385). -/
def pstate (d : Dev) (p : Nat) : Nat := rd d (plyPstateState p)

/-- The lockstep state of pair `p` at reset. -/
def PlySt.reset : PlySt :=
  { faults := [], latent := [], frozen := none, resetDone := false, injecting := false, copied := false,
    sweepFrame := none, twinDone := none, reloading := false, reloadMark := 0, mismatched := false, outRead := [], spared := none, released := false, tested := false, tried := false, refused := 0,
    rejoin := false, cold := false }

/-- The lockstep state of pair `p`. -/
def ply (d : Dev) (p : Nat) : PlySt := tget (fun _ => PlySt.reset) d.ply p

/-- The lockstep state of pair `p` changed. -/
def onPly (p : Nat) (f : PlySt → PlySt) (d : Dev) : Dev :=
  { d with ply := tset (fun _ => PlySt.reset) d.ply p (f (ply d p)) }

/-! ### Core pairs -/

/-- A pair at reset (R100, R126). -/
def Core.reset : Core :=
  { ports := [], plyB := [], acc := [], pipe := [], landAt := 0, pc := 0, save := [], regions := [], sync := [], lstate := [],
    armed := [], div := none, fpi := none, ext := [], landed := [], upsets := [], plyMem := [], corrected := 0, wb := [], fence := false, fenceErr := none, waiting := none, passed := 0,
    entry := none, queue := [], miss := none, icache := [], dcache := [], predictor := [], returns := [] }

/-- Pair `p`. -/
def core (d : Dev) (p : Nat) : Core := tget (fun _ => Core.reset) d.cores p

/-- Pair `p` set. -/
def setCore (p : Nat) (c : Core) (d : Dev) : Dev := { d with cores := tset (fun _ => Core.reset) d.cores p c }

/-- Pair `p` changed. -/
def onCore (p : Nat) (f : Core → Core) (d : Dev) : Dev := setCore p (f (core d p)) d

/-- The block of pair `p`'s PLY page. -/
def plyBlk (p : Nat) : Blk := .ply (Fin.ofNat 12 p)

/-! ### ECC of a pair's own memories (R164, R370) -/

/-- The ECC upsets that a read of `n` bytes at `a` meets, true for one that cannot be corrected. -/
def Core.upsetsIn (c : Core) (a n : Nat) : List Bool :=
  (c.upsets.filter (fun x => decide (a ≤ x.1) && decide (x.1 < a + n))).map Prod.snd

/-- `n` bytes at `a` are written anew: their upsets are gone, and both plies hold the same. -/
def Core.heal (a n : Nat) (c : Core) : Core :=
  let out (x : Nat) : Bool := !(decide (a ≤ x) && decide (x < a + n))
  { c with upsets := c.upsets.filter (fun x => out x.1), plyMem := c.plyMem.filter out }

/-- `n` corrected errors of pair `p` count in ECC_CORR_COUNT (R164, R370). -/
def eccCorrected (p n : Nat) (d : Dev) : Dev := doIf (n != 0) (fun d => incN d (plyEccCorrCount p) n) d

/-- The pair whose local memory holds the bytes at `a`. -/
def windowPair (a : Nat) : Nat := (a - 0x20000000) / 0x01000000

/-- The plies' copies of a local memory differ in some of `n` bytes at `a` (R367, R375). -/
def pliesDiffer (d : Dev) (a n : Nat) : Bool :=
  inLocal a && (core d (windowPair a)).plyMem.any (fun x => decide (a % 0x01000000 ≤ x) && decide (x < a % 0x01000000 + n))

/-- The ECC upsets that a read of `n` bytes at `a` over the fabric meets: those of a local memory (R164, R370). -/
def windowUpsets (d : Dev) (a n : Nat) : List Bool :=
  if inLocal a then (core d (windowPair a)).upsetsIn (a % 0x01000000) n else []

/-- Such a read counts what it corrects. -/
def windowCorrected (a n : Nat) (d : Dev) : Dev := eccCorrected (windowPair a) (windowUpsets d a n).length d

/-- Bytes written over the fabric: in a local memory their upsets are gone (R164). -/
def wrWindow (a : Nat) (l : List Byte) (d : Dev) : Dev :=
  wrBytes (if inLocal a then onCore (windowPair a) (Core.heal (a % 0x01000000) l.length) d else d) a l

/-! ### Time -/

/-- The module runs at 48 kHz (R33, R42). -/
def is48 (d : Dev) : Bool := flag d modRate48

/-- Samples in a frame: 12 or 6 (R12). -/
def nSamp (d : Dev) : Nat := if is48 d then 6 else 12

/-- CCLK cycles in a sample (R12). -/
def sampCycles (d : Dev) : Nat := if is48 d then 20480 else 10240

/-- PTP nanoseconds since the epoch (R14, R15). -/
def ptpNs (d : Dev) : Word :=
  d.clk.frame * 125000 + BitVec.ofNat 64 (d.clk.cycle * 125000 / 122880)

/-- The frame number that the work of this period belongs to: frame n in period n + 1 (R24). -/
def workFrame (d : Dev) : Word := d.clk.frame - 1

/-- The device at frame cycle `c` of the present period. -/
def atCycle (c : Nat) (d : Dev) : Dev := { d with clk := { d.clk with cycle := c } }

/-! ### Free values (R18) -/

/-- The next free value. -/
def freshVal (d : Dev) : BitVec 64 := Config.free d.freeCtr

/-- The counter of free values moved on. -/
def freshNext (d : Dev) : Dev := { d with freeCtr := d.freeCtr + 1 }

/-! ### Events and errors -/

/-- An event bit's rising edge sets its flag (R45). -/
def raise (b : Blk) (i : Nat) (d : Dev) : Dev :=
  wr d (hdrEvtFlag b) (putBit (rd d (hdrEvtFlag b)) i true)

/-- A condition that `EVT_RAW` shows while it stands (R45): the flag is set where it begins. -/
def raiseEdge (b : Blk) (i : Nat) (was now : Bool) (d : Dev) : Dev := if now && !was then raise b i d else d

/-- A write refused by such a guard is counted there, with GUARD raised (R241, R279, R332, R341). -/
def countGuard (b : Blk) (d : Dev) : Dev :=
  match b with
  | .bobbin => raise .bobbin 1 (inc d bobGuardCount)
  | _ => raise .sup 3 (inc d supGuardCount)

/-- A write by an engine of block `own`: into a guarded table that is not its own it is refused with an error response and
counted (R241, R332). -/
def putOut (own : Blk) (a : Nat) (l : List Byte) (d : Dev) : Dev :=
  match guardOf d a l.length with
  | some b => if b = own then wrBytes d a l else countGuard b d
  | none => wrBytes d a l

/-! ### Blocks under test (R421, R422) -/

/-- The block of a BIST index; none for shared SRAM (R422). -/
def bistBlk (i : Nat) : Option Blk :=
  if i < 12 then some (.ply (Fin.ofNat 12 i))
  else if i = 12 then some .evc
  else if i = 13 then some .spindle
  else if i = 14 then some .bobbin
  else if i = 15 then some .cht
  else if i = 16 then some .seq
  else if i = 17 then some .log
  else if i < 20 then some (.strm (Fin.ofNat 2 (i - 18)))
  else if i = 20 then some .ptp
  else if i < 33 then some (.tdm (Fin.ofNat 12 (i - 21)))
  else if i = 33 then some .sup
  else if i = 34 then some .tag
  else if i = 35 then some .wear
  else if i = 36 then some .twin
  else if i = 37 then some .gw
  else if i = 38 then some .cont
  else if i = 39 then some .rel
  else if i = 40 then some .stor
  else none

/-- A block that its test keeps from the fabric (R421). -/
def underTest (d : Dev) (b : Blk) : Bool := d.bist.testing.any (fun i => bistBlk i == some b)

/-- The last test of the block failed, quick or full: it stays disabled (R417, R420, R421). -/
def testFailed (d : Dev) (b : Blk) : Bool :=
  (List.range 42).any (fun i => bistBlk i == some b && decide (12 ≤ i) && rd d (bistResult i) == 2)

/-- Shared SRAM is kept from the fabric: its test runs, or it failed its last (R417, R421; DEDUCED, log entry 174). -/
def sramFenced (d : Dev) : Bool := d.bist.testing.contains 41 || rd d (bistResult 41) == 2

/-- An access of `n` bytes at `a` meets fenced SRAM (R421). -/
def fenced (d : Dev) (a n : Nat) : Bool := sramFenced d && overlaps a n 0x10000000 0x01800000

/-- The page's event line: any enabled flag (R45); it is low while the block is under test (R421). -/
def evtLine (b : Blk) (d : Dev) : Bool :=
  !underTest d b && (rdw d (blkBase b + 0x14) &&& rdw d (blkBase b + 0x18)) != 0

/-- EN cleared, by software or under HALT_ON_ERR: a running block quiesces (R53). -/
def disable (b : Blk) (d : Dev) : Dev :=
  let d1 := wr (wr d (hdrEn b) 0) (hdrPendEn b) 0
  if flag d (hdrActive b) then wr (wr d1 (hdrActive b) 0) (hdrQuiescing b) 1 else d1

/-- An error captured: the first is kept, every one counts, and HALT_ON_ERR clears EN at the first
(R43, R44, R52). -/
def captureErr (b : Blk) (code detail : Nat) (d : Dev) : Dev :=
  let d1 := inc d (hdrErrCount b)
  if rd d (hdrCode b) = 0 then
    let d2 := raise b 31 (wr (wr (wr d1 (hdrCode b) code) (hdrDetail b) detail) (hdrError b) 1)
    if flag d (hdrHalt b) then disable b d2 else d2
  else d1

/-! ### The log's queue -/

/-- The payload of a record from its fields, each a size in bytes and a value, at multiples of its size; a field of several
64-bit words, as a zone mask is, begins at a multiple of 8 (R457). -/
def payload (l : List (Nat × Nat)) : Nat :=
  (l.foldl (fun (acc : Nat × Nat) (f : Nat × Nat) =>
    let size := min f.1 8
    let at_ := (acc.1 + size - 1) / size * size
    (at_ + f.1, acc.2 + f.2 % 2 ^ (8 * f.1) * 2 ^ (8 * at_))) (0, 0)).2

/-- The loss of an event of a type: counted against it if an event of that type and hue is queued (R276). -/
def countLoss (typ : BitVec 16) : List LossCount → List LossCount
  | [] => [⟨typ, 1⟩]
  | l :: r => if l.typ = typ then { l with count := min (l.count + 1) 0xFFFF } :: r else l :: countLoss typ r

/-- SEV_MIN in force: the reserved value 3 acts as the reset value (R19, R278). -/
def sevMin (d : Dev) : Nat := if rd d logSevMin = 3 then 0 else rd d logSevMin

/-- An event reaches the log: filtered, queued or lost (R276, R278). -/
def logPush (r : LogRec) (d0 : Dev) : Dev :=
  let d := if r.sev = 2 then { d0 with log := { d0.log with crimson := some d0.clk.frame } } else d0
  let n := d.log.fifo.length
  if r.sev.toNat < sevMin d && r.sev.toNat < 2 then inc d logFilteredCount
  else if n < 480 || (r.sev.toNat == 2 && n < 512) then
    let d1 := { d with log := { d.log with fifo := d.log.fifo ++ [r] } }
    wr d1 logFifoPeak (max (rd d1 logFifoPeak) (n + 1))
  else
    let none_ := d.log.losses.isEmpty && d.log.other == 0
    let queued := d.log.fifo.any (fun q => q.typ == r.typ && q.hue == r.hue)
    let lg := { d.log with
      losses := if queued then countLoss r.typ d.log.losses else d.log.losses
      other := if queued then d.log.other else d.log.other + 1
      accepted := if none_ then false else d.log.accepted
      lossFirst := if none_ then r.time else d.log.lossFirst
      lossLast := r.time
      lossSev := if none_ || d.log.lossSev.toNat < r.sev.toNat then r.sev else d.log.lossSev }
    raise .log 1 (inc { d with log := lg } logLostCount)

/-- An event of a block at the present time, for frame `fr` (R274). -/
def logAt (fr : Word) (typ hue sev : Nat) (pl : List (Nat × Nat)) (arg : Nat) (d : Dev) : Dev :=
  logPush { time := ptpNs d, frame := fr, typ := BitVec.ofNat 16 typ, hue := BitVec.ofNat 4 hue,
            sev := BitVec.ofNat 2 sev, payload := payload pl, arg := BitVec.ofNat 64 arg } d

/-- An event of a block at the present time, for the current frame (R274). -/
def logEv (typ hue sev : Nat) (pl : List (Nat × Nat)) (arg : Nat) (d : Dev) : Dev :=
  logAt d.clk.frame typ hue sev pl arg d

/-- A record the manual asks for without naming its type: the event number, the payload and ARG are free
values (R274, log entry 5). -/
def logUnnamed (b : Blk) (hue sev : Nat) (d : Dev) : Dev :=
  let v (i : Nat) : Nat := (Config.free (d.freeCtr + i)).toNat
  let d1 := logPush {
      time := ptpNs d, frame := d.clk.frame,
      typ := BitVec.ofNat 16 (blkCode b % 256 * 256 + v 0 % 256), hue := BitVec.ofNat 4 hue, sev := BitVec.ofNat 2 sev,
      payload := v 1 + v 2 * 2 ^ 64 + v 3 * 2 ^ 128 + v 4 * 2 ^ 192, arg := BitVec.ofNat 64 (v 5) } d
  { d1 with freeCtr := d.freeCtr + 6 }

/-! ### The Apdin link's sender -/

/-- FRAME of a message: the frame it applies to, or the current one (R393). -/
def msgFrame (d : Dev) : Msg → Word
  | .inPkt _ _ f _ _ | .inTdm _ f _ | .inDigest f _ | .seal f _ | .sealAck f | .shadow f _ | .hash f _ _ _ | .sweep f _ _ => f
  | _ => d.clk.frame

/-- A message queued and sent on the link, if it is up. All but LINK are numbered and await acknowledgement; LINK, which is not
acknowledged, carries the number of the message before it (R393, R394; DESIGN CHOICE, log entry 169). -/
def sendMsg (m : Msg) (d : Dev) : Dev :=
  if d.twin.linkUp then
    let put (s : ApdinMsg) (ua : List Unacked) : Dev :=
      { d with twin := { d.twin with txLseq := s.lseq, unacked := ua }, out := { d.out with apdin := s :: d.out.apdin } }
    match m with
    | .link _ _ => put ⟨d.twin.txLseq, false, msgFrame d m, m⟩ d.twin.unacked
    | _ =>
      let s : ApdinMsg := ⟨d.twin.txLseq + 1, false, msgFrame d m, m⟩
      put s (d.twin.unacked ++ [⟨s, 1⟩])
  else d

/-- A packet sent on a media network. -/
def sendNet (m : NetOut) (d : Dev) : Dev := { d with out := { d.out with net := m :: d.out.net } }

/-- What a command answers. -/
abbrev Result := Host.Outcome State Fault Refusal

/-- The module does something at all: it has power, and it is not off-ready after a shut-down (R424). -/
def awake (d : Dev) : Bool := d.bist.powered && rd d bistPstatusPmode != 2

/-- A command whose effect is on the device alone; nothing happens in a module that is off (R424). -/
def onDev (s : State) (f : Dev → Dev) : Result := .next { s with dev := if awake s.dev then f s.dev else s.dev }

/-- A command whose effect is on the twin role and the device; nothing happens in a module that is off (R424). -/
def onBoth (s : State) (f : Role × Dev → Role × Dev) : Result :=
  .next (if awake s.dev then { s with role := (f (s.role, s.dev)).1, dev := (f (s.role, s.dev)).2 } else s)

/-- A supply event or a module reset, which an off module obeys too (R424, R428). -/
def onPower (s : State) (f : Role × Dev → Role × Dev) : Result :=
  .next { s with role := (f (s.role, s.dev)).1, dev := (f (s.role, s.dev)).2 }

end Sys2Proof.Machine
end

