-- ==== Sys2Proof/Machine/Spindle.lean ====
section
/-! DEFINITION. The Spindle DMA (R213 to R240): channels, lists, the two engines, triggers and stops. -/

namespace Sys2Proof.Machine

/-- A channel at reset: nothing in flight. -/
def SpChan.empty : SpChan :=
  { elems := [], done := 0, listPtr := 0, listReads := 0, listDone := true, first := none, contig := 0, runs := [],
    released := 0, free := false, reads := [], writes := [], half := false, stop := none, lateReads := 0,
    lateWrites := 0, goneReads := 0, goneWrites := 0, fulls := 0, restart := 0 }

/-- Channel `c` of the engines. -/
def spGet (d : Dev) (c : Nat) : SpChan := tget (fun _ => SpChan.empty) d.sp.chans c

/-- Channel `c` of the engines set. -/
def spPut (c : Nat) (x : SpChan) (d : Dev) : Dev :=
  { d with sp := { d.sp with chans := tset (fun _ => SpChan.empty) d.sp.chans c x } }

/-- A trigger line pulses (R229). -/
def spPulse (line : Nat) (d : Dev) : Dev := { d with sp := { d.sp with pulses := d.sp.pulses ++ [line] } }

/-! ### Windows of pairs that have frozen (R375) -/

/-- State of the pair whose local window holds `a`; 1 where none does. -/
def windowState (d : Dev) (a : Nat) : Nat := if inLocal a then pstate d ((a - 0x20000000) / 0x01000000) else 1

/-- The pair whose local window holds `a` is resetting or copying. -/
def windowResets (d : Dev) (a : Nat) : Bool :=
  let x := ply d ((a - 0x20000000) / 0x01000000)
  (windowState d a == 3 && !x.copied) || (windowState d a == 4 && !x.resetDone)

/-- A write to `a` is discarded: its pair is frozen, resetting or copying. -/
def windowDrops (d : Dev) (a : Nat) : Bool := windowState d a == 2 || windowState d a == 5 || windowResets d a

/-! ### Reach and elements -/

/-- Every byte of the range may be read by a channel (R213). -/
def spReads (a n : Nat) : Bool :=
  n == 0 || (inRam a && inRam (a + n - 1) && (inSram a == inSram (a + n - 1)) && (inDram a == inDram (a + n - 1)) &&
    (!inLocal a || a / 0x01000000 == (a + n - 1) / 0x01000000)) ||
  (decide (a + n ≤ 0x20000)) || (decide (0x08000000 ≤ a) && decide (a + n ≤ 0x10000000))

/-- Every byte of the range may be written by a channel: not the descriptor area of a local memory (R213). -/
def spWrites (a n : Nat) : Bool :=
  n == 0 || (inRam a && inRam (a + n - 1) && (inSram a == inSram (a + n - 1)) && (inDram a == inDram (a + n - 1)) &&
    (!inLocal a || (a / 0x01000000 == (a + n - 1) / 0x01000000 &&
      !overlaps (a % 0x01000000) n 0x7FF00 0x100)))

/-- Transfer mode of the active set (R216). -/
def actSg (d : Dev) (c : Nat) : Nat := bits (rd d (chActCfg c)) 1 0
/-- Trigger mode of the active set (R230). -/
def actTmode (d : Dev) (c : Nat) : Nat := bits (rd d (chActCfg c)) 3 2
/-- Trigger line of the active set (R229). -/
def actTrig (d : Dev) (c : Nat) : Nat := bits (rd d (chActCfg c)) 11 4
/-- Priority of the active set (R223). -/
def actPrio (d : Dev) (c : Nat) : Nat := bits (rd d (chActCfg c)) 13 12

/-- ELEM_LIMIT in force: 0 acts as the reset value (R19, R220). -/
def elemLimit (d : Dev) : Nat := if rd d spElemLimit = 0 then 0x1000 else rd d spElemLimit

/-- An element as the run holds it, refused with BAD_ADDRESS if it is out of reach (R213). -/
def mkElem (src dst len : Nat) (evt : Bool) (bad : Option Nat) : SpElem :=
  { src := src, dst := dst, len := len, read := 0, acked := 0, held := [], heldAt := dst,
    bad := if bad.isSome then bad else if spReads src len && spWrites dst len then none else some 0x0104,
    evt := evt }

/-- The error that ends a list in place of an element (R218, R220, R233). -/
def badElem (code : Nat) : SpElem := mkElem 0 0 0 false (some code)

/-- A list element out of the channel's reach is refused with BAD_ADDRESS before it is read (R213; DEDUCED, log entry
120). -/
def SpChan.listCheck (x : SpChan) : SpChan :=
  if x.listDone || spReads x.listPtr 16 then x else { x with elems := x.elems ++ [badElem 0x0104], listDone := true }

/-! ### Stops -/

/-- The destination ranges of a set, walked from its list (R216, R217); `fuel` bounds the walk. -/
def listDests (d : Dev) (sg : Nat) : Nat → Nat → Nat → Bool → List (Nat × Nat)
  | 0, _, _, _ => []
  | fuel + 1, p, contig, second =>
    let w := rdN d p 16
    let a := bits w 39 0
    let n := bits w 63 40
    if bit w 64 then listDests d sg fuel a contig second
    else
      let here := if sg = 1 then [(contig, n)] else if sg = 2 then [(a, n)] else if second then [(a, n)] else []
      here ++ (if bit w 65 then [] else listDests d sg fuel (p + 16) (contig + n) (sg == 3 && !second))

/-- Every destination byte of the active set of channel `c`, over its lists since the start (R235, R236). -/
def setDests (d : Dev) (c : Nat) : List (Nat × Nat) :=
  if actSg d c = 0 then [(rd64 d (chActDstLo c) (chActDstHi c), rd d (chActLen c))]
  else (spGet d c).runs.flatMap (fun r => listDests d (actSg d c) (elemLimit d) r.1 r.2 false)

/-- The destination bytes of a transfer become undefined, but for those in a guarded table, which no request reaches
(R18, R234, R236, R241). -/
def spoil (r : Nat × Nat) (d : Dev) : Dev :=
  { (List.range r.2).foldl (fun d i =>
      if (guardOf d (r.1 + i) 1).isSome then d else wrB d (r.1 + i) ((Config.free (d.freeCtr + i)).setWidth 8)) d with
    freeCtr := d.freeCtr + r.2 }

/-- A range of memory becomes undefined (R18). -/
def scramble (r : Nat × Nat) (d : Dev) : Dev :=
  if spWrites r.1 r.2 then
    { wrBytes d r.1 ((List.range r.2).map (fun i => (Config.free (d.freeCtr + i)).setWidth 8)) with
      freeCtr := d.freeCtr + r.2 }
  else d

/-- EN of a channel cleared: the run is dropped at once (R236). -/
def spDrop (c : Nat) (d : Dev) : Dev :=
  let x := spGet d c
  let busy := !(x.reads.isEmpty && x.writes.isEmpty)
  let was := flag d (chChStatusActive c)
  let d1 := doIf (was && actTmode d c != 3) (forEach ((setDests d c).filter (fun r => spWrites r.1 r.2)) spoil) d
  let d2 := spPut c { x with elems := [], listDone := true, first := none, free := false, released := 0, stop := none,
                             reads := x.reads.map (fun r => { r with live := false }),
                             writes := x.writes.map (fun r => { r with live := false }) } d1
  let d3 := wr (wr (wr (wr d2 (chChCtrlEn c) 0) (chChStatusActive c) 0) (chChStatusLatched c) 0) (chChStatusWaitTrig c) 0
  let d4 := wr (wr (wr d3 (chChStatusStopped c) 0) (chChStatusPendEn c) 0) (chChStatusCode c) 0
  let d5 := if was then
      freshNext (freshNext (wr64 (wr d4 (chElemIndex c) (freshVal d4).toNat) (chBytesDoneLo c) (chBytesDoneHi c)
        (Config.free (d4.freeCtr + 1)).toNat))
    else d4
  if busy then wr d5 (chChStatusQuiescing c) 1 else d5

/-- SPINDLE.CTRL.EN cleared: EN of every channel is cleared, which drops each, or takes a pending enable back
(R236, R238). -/
def spDropAll (d : Dev) : Dev :=
  forN 128 (fun c d => if flag d (chChCtrlEn c) then spDrop c d
    else doIf (flag d (chChStatusPendEn c)) (fun d => wr d (chChStatusPendEn c) 0) d) d

/-- Every channel dropped without waiting; responses that arrive later answer nothing (R54, R238). -/
def spAbandon (d : Dev) : Dev :=
  let end_ (x : SpChan) : SpChan :=
    { x with reads := [], writes := [], lateReads := x.lateReads + x.reads.length, lateWrites := x.lateWrites + x.writes.length }
  forN 128 (fun c d => doIf (flag d (chChStatusQuiescing c))
    (fun d => wr (spPut c (end_ (spGet d c)) d) (chChStatusQuiescing c) 0) d) (spDropAll d)

/-- SOFT_RST drops the engines' channels: what is in flight answers to nothing any more (R238). -/
def spForget (d : Dev) : Dev :=
  let gone (x : SpChan) : SpChan := { SpChan.empty with
    goneReads := x.goneReads + x.lateReads + x.reads.length, goneWrites := x.goneWrites + x.lateWrites + x.writes.length }
  { d with sp := { SpSt.reset with
      chans := (List.range 128).foldl (fun t c => tset (fun _ => SpChan.empty) t c (gone (spGet d c))) [] } }

/-- Some channel is still quiescing (R238). -/
def spBusy (d : Dev) : Bool := (List.range 128).any (fun c => flag d (chChStatusQuiescing c))

/-- Some channel is stopped: `EVT_RAW` bit 0 (R239). -/
def spAnyStopped (d : Dev) : Bool := (List.range 128).any (fun c => flag d (chChStatusStopped c))

/-- An error of a channel is captured; under HALT_ON_ERR the first one drops every channel (R233, R238). -/
def spCapture (code c : Nat) (d : Dev) : Dev :=
  let d1 := captureErr .spindle code c d
  if flag d (hdrEn .spindle) && !flag d1 (hdrEn .spindle) then spDropAll d1 else d1

/-- A channel comes to its stop on its first uncompleted element, with nothing outstanding (R233, R234); what was left
of that element's destination is undefined. -/
def spStopNow (c code : Nat) (d : Dev) : Dev :=
  let x := spGet d c
  let dst := match x.elems with | e :: _ => (e.dst, if e.bad = some 0x0104 then 0 else e.len) | [] => (0, 0)
  let d1 := spPut c { x with elems := [], stop := none } d
  let d4 := wr (wr (wr (spoil dst d1) (chChStatusStopped c) 1) (chChStatusCode c) (code % 256)) (chChStatusWaitTrig c) 0
  let d5 := wr d4 (chChEvt c) (putBit (rd d4 (chChEvt c)) 3 true)
  spCapture code c (raiseEdge .spindle 0 (spAnyStopped d) true d5)

/-- A channel is to stop with a code: it issues nothing more, and stops once every outstanding request has answered or
timed out (R234). -/
def spStop (c code : Nat) (d : Dev) : Dev :=
  let x := spGet d c
  if x.reads.isEmpty && x.writes.isEmpty then spStopNow c code d
  else spPut c { x with stop := some (x.stop.getD code), reads := x.reads.map (fun r => { r with live := false }),
                        writes := x.writes.map (fun r => { r with live := false }) } d

/-- The last outstanding request of a channel that is to stop has gone (R234). -/
def spSettle (c : Nat) (d : Dev) : Dev :=
  let x := spGet d c
  match x.stop with
  | some code => if x.reads.isEmpty && x.writes.isEmpty then spStopNow c code d else d
  | none => d

/-! ### Starts -/

/-- The engines set up for a run of the active set: at a load or reload from its start, at a RESTART from
the new list (R224, R226, R235). -/
def spBegin (c : Nat) (list : Nat) (restart : Bool) (d : Dev) : Dev :=
  let sg := actSg d c
  let src := rd64 d (chActSrcLo c) (chActSrcHi c)
  let dst := rd64 d (chActDstLo c) (chActDstHi c)
  let len := rd d (chActLen c)
  let bytes := rd64 d (chBytesDoneLo c) (chBytesDoneHi c)
  let x := spGet d c
  let x1 : SpChan := { x with
    elems := if sg = 0 && actTmode d c != 3 then [mkElem src dst len false none] else []
    stop := none
    done := if restart then rd d (chElemIndex c) else 0
    listPtr := list, listReads := 0, listDone := sg == 0, first := none
    contig := (if sg = 1 then dst else src) + bytes
    runs := (if restart then x.runs else []) ++ [(list, dst + bytes)]
    released := if restart then rd d (chElemIndex c) else 0
    free := actTmode d c == 0
    half := if restart then x.half else false }
  let d1 := wr (wr (spPut c x1.listCheck d) (chChStatusActive c) 1) (chChStatusStopped c) 0
  let d2 := wr d1 (chChStatusCode c) 0
  if actTmode d c = 3 then spStop c 0x0105 d2
  else wr d2 (chChStatusWaitTrig c) (b2n (actTmode d c != 0))

/-- The list start of the active set (R216). -/
def actList (d : Dev) (c : Nat) : Nat := rd d (chActListLo c) * 16 + rd d (chActListHi c) * 2 ^ 32

/-- ELEM_INDEX and BYTES_DONE set to zero (R224). -/
def spZero (c : Nat) (d : Dev) : Dev := wr64 (wr d (chElemIndex c) 0) (chBytesDoneLo c) (chBytesDoneHi c) 0

/-- The shadow set loaded into the active set (R224). -/
def spLoad (c : Nat) (d : Dev) : Dev :=
  let d1 := wr64 d (chActSrcLo c) (chActSrcHi c) (rd64 d (chShSrcLo c) (chShSrcHi c))
  let d2 := wr64 d1 (chActDstLo c) (chActDstHi c) (rd64 d (chShDstLo c) (chShDstHi c))
  let d3 := wr d2 (chActLen c) (rd d (chShLen c))
  let d4 := wrw d3 (chActCfg c).off (rdw d (chShCfgSg c).off)
  let d5 := wr (wr d4 (chActListLo c) (rd d (chShListLo c))) (chActListHi c) (rd d (chShListHi c))
  let d6 := spZero c (inc (wr d5 (chChStatusArmed c) 0) (chSwapCount c))
  spBegin c (actList d6 c) false d6

/-- A load takes place when EN is 1, ARMED is 1 and no set is active (R224). -/
def spTryLoad (c : Nat) (d : Dev) : Dev :=
  if flag d (chChCtrlEn c) && flag d (chChStatusArmed c) && !flag d (chChStatusActive c) then spLoad c d else d

/-- A trigger reaches channel `c`: its latch is set, or the trigger is lost; in immediate mode triggers
are ignored (R230, R231). -/
def spTrigger (c : Nat) (d : Dev) : Dev :=
  if flag d (chChCtrlEn c) && !(flag d (chChStatusActive c) && actTmode d c == 0) then
    if flag d (chChStatusLatched c) then raise .spindle 1 (inc d spTrigLostCount)
    else wr d (chChStatusLatched c) 1
  else d

/-! ### Progress -/

/-- The transfer is complete (R226, R227). -/
def spComplete (c : Nat) (d0 : Dev) : Dev :=
  let d := spPut c { spGet d0 c with fulls := (spGet d0 c).fulls + 1 } d0
  let d1 := wr d (chChEvt c) (putBit (rd d (chChEvt c)) 1 true)
  let d2 := doIf (bit (rd d (chActCfg c)) 16) (spPulse (16 + c)) d1
  let d3 := wr (wr d2 (chChStatusActive c) 0) (chChStatusWaitTrig c) 0
  if flag d3 (chChStatusArmed c) then spLoad c d3
  else if bit (rd d (chActCfg c)) 14 then spBegin c (actList d3 c) false (spZero c d3)
  else d3

/-- The first element is complete: it is counted, HALF is judged, and the transfer may be complete
(R219, R227). -/
def spElemDone (c : Nat) (d : Dev) : Dev :=
  let x := spGet d c
  match x.elems with
  | [] => d
  | e :: rest =>
    let bytes := rd64 d (chBytesDoneLo c) (chBytesDoneHi c) + e.len
    let len := rd d (chActLen c)
    let half := !x.half && len != 0 && decide ((len + 1) / 2 ≤ bytes)
    let d1 := spPut c { x with elems := rest, done := x.done + 1, half := x.half || half } d
    let d2 := wr64 (wr d1 (chElemIndex c) (x.done + 1)) (chBytesDoneLo c) (chBytesDoneHi c) bytes
    let d3 := doIf half (fun d => doIf (bit (rd d (chActCfg c)) 15) (spPulse (16 + c))
      (wr d (chChEvt c) (putBit (rd d (chChEvt c)) 0 true))) d2
    let d4 := doIf e.evt (fun d => spPulse (16 + c) (wr d (chChEvt c) (putBit (rd d (chChEvt c)) 2 true))) d3
    if rest.isEmpty && x.listDone then spComplete c d4 else d4

/-- One piece of progress channel `c` makes of itself: a stop that is due, a latched trigger consumed, or an
empty element completed (R218, R230, R231, R234). -/
def spAdvance (c : Nat) (d : Dev) : Dev :=
  if !flag d (chChCtrlEn c) || !flag d (chChStatusActive c) || flag d (chChStatusStopped c) || (spGet d c).stop.isSome then d
  else
    let x := spGet d c
    match x.elems with
    | e :: _ =>
      match e.bad with
      | some code => spStop c code d
      | none =>
        if x.free || decide (x.done < x.released) then
          (if e.len = 0 then spElemDone c d else d)
        else if flag d (chChStatusLatched c) then
          let d1 := wr (wr d (chChStatusLatched c) 0) (chChStatusWaitTrig c) 0
          let d2 := spPut c { x with released := x.done + 1, free := actTmode d c == 1 } d1
          if e.len = 0 then spElemDone c d2 else d2
        else wr d (chChStatusWaitTrig c) 1
    | [] =>
      if x.listDone && x.reads.isEmpty then spComplete c d else d

/-- Every channel the pulsed lines select receives its trigger; what that pulses in turn is received in the same way, in
the order of the FCLK edges (R229, R231). The first argument bounds a chain of channels that trigger each other. -/
def spDeliverN : Nat → Dev → Dev
  | 0, d => d
  | n + 1, d =>
    let lines := d.sp.pulses
    if lines.isEmpty then d
    else
      let d1 := { d with sp := { d.sp with pulses := [] } }
      spDeliverN n
        (forN 128 (fun c d => doIf (lines.contains (actTrig d c)) (fun d => spAdvance c (spTrigger c d)) d) d1)

/-- The trigger pulses given so far reach their channels, at most 4,096 edges of a chain in one command (DESIGN CHOICE,
log entry 119). -/
def spDeliver (d : Dev) : Dev := spDeliverN 4096 d

/-! ### Lists -/

/-- A list element, as read, becomes part of the run (R216 to R220). -/
def spElement (c w : Nat) (d : Dev) : Dev :=
  let x := spGet d c
  let a := bits w 39 0
  let n := bits w 63 40
  let link := bit w 64
  let last := bit w 65
  let evt := bit w 66
  let sg := actSg d c
  let badBits := bits w 127 67 != 0 || (link && last) || (link && (n != 0 || a % 16 != 0))
  let stopWith (code : Nat) : Dev := spPut c { x with elems := x.elems ++ [badElem code], listDone := true } d
  if elemLimit d < x.listReads + 1 then stopWith 0x0100
  else if badBits then stopWith 0x0103
  else
    let x1 := { x with listReads := x.listReads + 1 }
    if link then spPut c { x1 with listPtr := a }.listCheck d
    else if sg = 3 then
      match x.first with
      | none => if last then stopWith 0x0103 else spPut c { x1 with first := some (a, n, evt), listPtr := x.listPtr + 16 }.listCheck d
      | some (sa, sn, sevt) =>
        if sn ≠ n then stopWith 0x0103
        else spPut c { x1 with elems := x.elems ++ [mkElem sa a n (evt || sevt) none], first := none,
                               listDone := last, listPtr := x.listPtr + 16 }.listCheck d
    else
      let e := if sg = 1 then mkElem a x.contig n evt none else mkElem x.contig a n evt none
      spPut c { x1 with elems := x.elems ++ [e], contig := x.contig + n, listDone := last, listPtr := x.listPtr + 16 }.listCheck d

/-! ### The engines -/

/-- Bytes a channel holds of the staging buffer (R223). -/
def spHeld (x : SpChan) : Nat :=
  (x.elems.map (fun e => e.held.length)).sum + (x.reads.map (fun r => if r.list then 0 else r.len)).sum

/-- The first released element still to be read, and its place (R222, R223). -/
def nextRead (x : SpChan) : List SpElem → Nat → Option (Nat × SpElem)
  | [], _ => none
  | e :: r, i =>
    if e.bad.isSome then none
    else if !(x.free || decide (i < x.released)) then none
    else if e.read < e.len then some (i, e) else nextRead x r (i + 1)

/-- Bytes all channels hold of the staging buffer (R223, R240). -/
def spHeldAll (d : Dev) : Nat := (d.sp.chans.map (fun e => spHeld e.2)).sum

/-- What channel `c` may still take of the staging buffer: 16 KiB for itself, 256 KiB for all (R223). -/
def spRoom (d : Dev) (c : Nat) : Nat := min (16384 - spHeld (spGet d c)) (262144 - spHeldAll d)

/-- The read request channel `c` would make next (R214, R215, R223): data of a released element, else the next
list element. -/
def spReadReq (d : Dev) (c : Nat) : Option SpReq :=
  let x := spGet d c
  let hue := rd d (chChHue c)
  if !flag d (chChCtrlEn c) || !flag d (chChStatusActive c) || flag d (chChStatusStopped c) || x.stop.isSome then none
  else match nextRead x x.elems x.done with
    | some (i, e) =>
      if 0 < spRoom d c then
        let a := e.src + e.read
        some { list := false, elem := i, addr := a, len := min (min (e.len - e.read) (128 - a % 128)) (spRoom d c), data := [],
               hue := hue, live := true }
      else none
    | none =>
      if x.listDone || x.reads.any (fun r => r.list) || x.elems.any (fun e => e.bad.isSome) then none
      else some { list := true, elem := x.done + x.elems.length, addr := x.listPtr, len := 16, data := [],
                  hue := hue, live := true }

/-- The write request channel `c` would make next: its first element only (R214, R222). -/
def spWriteReq (d : Dev) (c : Nat) : Option SpReq :=
  let x := spGet d c
  if !flag d (chChCtrlEn c) || !flag d (chChStatusActive c) || flag d (chChStatusStopped c) || x.stop.isSome then none
  else match x.elems with
    | e :: _ =>
      if e.held.isEmpty || e.bad.isSome then none
      else
        let n := min e.held.length (128 - e.heldAt % 128)
        some { list := false, elem := x.done, addr := e.heldAt, len := n, data := e.held.take n,
               hue := rd d (chChHue c), live := true }
    | [] => none

/-- The channel an engine serves: the highest priority among the candidates, in turn after the last served
of that priority (R223). -/
def spPick (d : Dev) (last : Table Nat) (cand : Nat → Bool) : Option Nat :=
  let cs := (List.range 128).filter cand
  let p := cs.foldl (fun m c => max m (actPrio d c)) 0
  let same := cs.filter (fun c => actPrio d c == p)
  let l := tget (fun _ => 127) last p
  match same.filter (fun c => decide (l < c)) with
  | c :: _ => some c
  | [] => same.head?

/-- Requests in flight over all channels. -/
def inFlight (d : Dev) (sel : SpChan → List SpReq) : Nat :=
  (d.sp.chans.map (fun e => (sel e.2).length)).sum

/-- SPINDLE_READ_ISSUE: one read request of the channel the read engine chooses (R214, R223). -/
def doSpindleReadIssue (d0 : Dev) : Dev :=
  let d := spDeliver (forN 128 spAdvance (spDeliver d0))
  if 64 ≤ inFlight d SpChan.reads then d
  else match spPick d d.sp.lastRd (fun c => (spReadReq d c).isSome) with
    | none => d
    | some c =>
      match spReadReq d c with
      | none => d
      | some r =>
        let x := spGet d c
        let x1 := { x with
          reads := x.reads ++ [r]
          elems := if r.list then x.elems
            else x.elems.mapIdx (fun i e => if x.done + i = r.elem then { e with read := e.read + r.len } else e) }
        { spPut c x1 d with sp := { (spPut c x1 d).sp with lastRd := tset (fun _ => 127) d.sp.lastRd (actPrio d c) c } }

/-- SPINDLE_WRITE_ISSUE: one write request of the channel the write engine chooses (R214, R222, R223). -/
def doSpindleWriteIssue (d : Dev) : Dev :=
  if 64 ≤ inFlight d SpChan.writes then d
  else match spPick d d.sp.lastWr (fun c => (spWriteReq d c).isSome) with
    | none => d
    | some c =>
      match spWriteReq d c with
      | none => d
      | some r =>
        let x := spGet d c
        let x1 := { x with
          writes := x.writes ++ [r]
          elems := x.elems.mapIdx (fun i e =>
            if i = 0 then { e with held := e.held.drop r.len, heldAt := e.heldAt + r.len } else e) }
        { spPut c x1 d with sp := { (spPut c x1 d).sp with lastWr := tset (fun _ => 127) d.sp.lastWr (actPrio d c) c } }

/-- An element of the run marked with the error met on it. -/
def spMark (c i code : Nat) (d : Dev) : Dev :=
  let x := spGet d c
  spPut c { x with listDone := true, elems :=
    (x.elems.mapIdx (fun j e => if x.done + j = i then { e with bad := some code } else e)) ++
    (if i = x.done + x.elems.length then [badElem code] else []) } d

/-- A response to a request that a SOFT_RST dropped is discarded (R238). -/
def spGone (read : Bool) (c : Nat) (d : Dev) : Dev :=
  let x := spGet d c
  spPut c (if read then { x with goneReads := x.goneReads - 1 } else { x with goneWrites := x.goneWrites - 1 }) d

/-- A response that comes after its request timed out is discarded and counted (R234). -/
def spLate (read : Bool) (c : Nat) (d : Dev) : Dev :=
  let x := spGet d c
  inc (spPut c (if read then { x with lateReads := x.lateReads - 1 } else { x with lateWrites := x.lateWrites - 1 }) d)
    spLateRespCount

/-- Output samples leave a pair's local window for the output buffer (R291, R375). -/
def noteOutRead (r : SpReq) (e : Option SpElem) (d : Dev) : Dev :=
  match e with
  | some e =>
    let a := e.dst + (r.addr - e.src)
    let base := rd d (strmOutBase 0) * 256
    if inLocal r.addr && decide (base ≤ a) && decide (a < base + 12288) then
      onPly (windowPair r.addr) (fun x => { x with outRead := x.outRead ++ [(a, r.len)] }) d
    else d
  | none => d

/-- SPINDLE_READ_RESPONSE: the oldest read of channel `c` answers, or one that had timed out; a list element is judged,
data enters the buffer, an error marks the element, of ECC too; a response to a request of before a SOFT_RST is discarded
(R164, R214, R217 to R220, R233, R234, R238, R375). -/
def doSpindleReadResponse (c : Nat) (late : Bool) (err : MemErr) (d : Dev) : Dev :=
  let x := spGet d c
  if late && x.goneReads != 0 then spGone true c d
  else if late && x.lateReads != 0 then spLate true c d
  else match x.reads with
  | [] => if x.goneReads ≠ 0 then spGone true c d else inc d spLateRespCount
  | r :: rs =>
    let d0 := windowCorrected r.addr r.len d
    let d1 := spPut c { x with reads := rs } d0
    if !r.live then spSettle c d1
    else if err ≠ .none || fenced d r.addr r.len || windowResets d r.addr || pliesDiffer d r.addr r.len || (windowUpsets d r.addr r.len).contains true then
      spDeliver (spAdvance c (spMark c r.elem 0x0102 d1))
    else if r.list then spDeliver (spAdvance c (spElement c (rdN d1 r.addr 16) d1))
    else spDeliver (spAdvance c (spPut c { x with reads := rs, elems := x.elems.mapIdx (fun i e =>
      if x.done + i = r.elem then { e with held := e.held ++ rdBytes d r.addr r.len } else e) }
        (noteOutRead r (x.elems.drop (r.elem - x.done)).head? d0)))

/-- SPINDLE_WRITE_RESPONSE: the oldest write of channel `c` is acknowledged, or fails, or one that had timed out answers; a
write into a guarded table is refused there (R222, R227, R233, R234, R241, R332, R375). -/
def doSpindleWriteResponse (c : Nat) (late : Bool) (err : MemErr) (d : Dev) : Dev :=
  let x := spGet d c
  if late && x.goneWrites != 0 then spGone false c d
  else if late && x.lateWrites != 0 then spLate false c d
  else match x.writes with
  | [] => if x.goneWrites ≠ 0 then spGone false c d else inc d spLateRespCount
  | w :: ws =>
    let d1 := spPut c { x with writes := ws } d
    let g := guardOf d w.addr w.len
    let d2 := match g with | some b => countGuard b d1 | none => d1
    let fails := err ≠ .none || fenced d w.addr w.len || g.isSome
    let d3 := if fails || windowDrops d w.addr then d2 else wrWindow w.addr w.data d2
    if !w.live then spSettle c d3
    else if fails then spStop c 0x0102 d3
    else
      let y := spGet d3 c
      let d4 := spPut c { y with elems := y.elems.mapIdx (fun i e =>
        if i = 0 then { e with acked := e.acked + w.len } else e) } d3
      match (spGet d4 c).elems with
      | e :: _ => spDeliver (spAdvance c (if e.acked = e.len then spElemDone c d4 else d4))
      | [] => d4

/-- RESP_TIMEOUT: the oldest request of channel `c`, a write before a read, has had no response for 8,192 FCLK cycles
(R233, R234). -/
def doRespTimeout (c : Nat) (d : Dev) : Dev :=
  let x := spGet d c
  match x.writes, x.reads with
  | w :: ws, _ =>
    let d1 := spPut c { x with writes := ws, lateWrites := x.lateWrites + 1 } d
    if w.live then spStop c 0x0101 d1 else spSettle c d1
  | [], r :: rs =>
    let d1 := spPut c { x with reads := rs, lateReads := x.lateReads + 1 } d
    if r.live then spDeliver (spAdvance c (spMark c r.elem 0x0101 d1)) else spSettle c d1
  | [], [] => d

/-- SPINDLE_CH_QUIESCE_END: the last outstanding request of a dropped channel has answered or timed out, and the quiesce
ends; it does not end while more than that one is out (R236). -/
def doSpindleChQuiesceEnd (c : Nat) (d : Dev) : Dev :=
  let x := spGet d c
  if flag d (chChStatusQuiescing c) && decide (x.reads.length + x.writes.length ≤ 1) then
    let d1 := wr (spPut c { x with reads := [], writes := [] } d) (chChStatusQuiescing c) 0
    if flag d (chChStatusPendEn c) then
      spDeliver (spAdvance c (spTryLoad c (wr (wr d1 (chChStatusPendEn c) 0) (chChCtrlEn c) 1)))
    else d1
  else d

/-- Trigger lines that never pulse (R229). -/
def deadLine (line : Nat) : Bool := (decide (147 ≤ line) && decide (line < 160)) || decide (224 ≤ line)

/-- SPINDLE_TRIGGER: a trigger line pulses, unless it is one that never does (R229 to R231). -/
def doSpindleTrigger (line : Nat) (d : Dev) : Dev := if deadLine line then d else spDeliver (spPulse line d)

/-! ### Register actions of a channel -/

/-- EN of a channel written (R216, R224, R231, R236). -/
def spWriteEn (c : Nat) (en : Bool) (d : Dev) : Dev :=
  if en then
    if flag d (chChStatusQuiescing c) then wr d (chChStatusPendEn c) 1
    else if flag d (chChCtrlEn c) then d
    else spAdvance c (spTryLoad c (wr d (chChCtrlEn c) 1))
  else if flag d (chChCtrlEn c) then spDrop c d
  else wr d (chChStatusPendEn c) 0

/-- A write of CH_CTRL: EN, then ARM, DISARM and SWTRIG (R224, R230, R236, R237). -/
def spWriteCtrl (c w : Nat) (d : Dev) : Dev :=
  let d1 := spWriteEn c (bit w 0) d
  let d2 := doIf (bit w 1 && !bit w 2) (fun d => spAdvance c (spTryLoad c (wr d (chChStatusArmed c) 1))) d1
  let d3 := doIf (bit w 2) (fun d => wr d (chChStatusArmed c) 0) d2
  spDeliver (doIf (bit w 3) (fun d => spAdvance c (spTrigger c d)) d3)

/-- A write of RESTART_HI starts the new run of a stopped channel (R235). -/
def spRestart (c w : Nat) (d : Dev) : Dev :=
  let list := (spGet d c).restart + w % 256 * 2 ^ 32
  spDeliver (spAdvance c (spBegin c list true d))

/-- A write of RESTART_HI is refused while the channel is not stopped, and in flat mode (R235). -/
def spRestartOk (d : Dev) (c : Nat) : Bool := flag d (chChStatusStopped c) && actSg d c != 0

/-! ### Timers (R232) -/

/-- OFFSET of timer `t` in force (R232). -/
def timerOffset (d : Dev) (t : Nat) : Nat :=
  let o := rd d (sptimerOffset t) / 2 * 2
  if flag d (sptimerUnit t) then (if o < sampCycles d then o else 0) else (if o < 122880 then o else 0)

/-- PERIOD of timer `t` in force: 0 acts as the reset value 1 (R19, R232). -/
def timerPeriod (d : Dev) (t : Nat) : Nat := max 1 (rd d (sptimerPeriod t))

/-- PHASE of timer `t` in force: a value not below PERIOD acts as 0 (R19, R232). -/
def timerPhase (d : Dev) (t : Nat) : Nat :=
  if rd d (sptimerPhase t) < timerPeriod d t then rd d (sptimerPhase t) else 0

/-- The frame cycle at which timer `t` pulses in the present frame, or sample (R232). -/
def timerCycle (d : Dev) (t : Nat) : Nat :=
  (if flag d (sptimerUnit t) then sampCycles d * d.clk.sample else 0) + timerOffset d t

/-- The present frame, or sample, of timer `t`: twice its number, plus UNIT. -/
def timerNow (d : Dev) (t : Nat) : Nat :=
  2 * (if flag d (sptimerUnit t) then d.clk.frame.toNat * nSamp d + d.clk.sample else d.clk.frame.toNat) + b2n (flag d (sptimerUnit t))

/-- Whether timer `t` pulses in the present frame, or sample: it is one of its own, the cycle of OFFSET has not passed, and
it has not pulsed in it (R232). -/
def timerDue (d : Dev) (t : Nat) : Bool :=
  flag d (sptimerEn t) && timerNow d t / 2 % timerPeriod d t == timerPhase d t &&
  decide (d.clk.cycle ≤ timerCycle d t) && tget (fun _ => none) d.sp.timers t != some (timerNow d t)

/-- The pulse of a timer noted. -/
def timerNote (t : Nat) (d : Dev) : Dev :=
  { d with sp := { d.sp with timers := tset (fun _ => none) d.sp.timers t (some (timerNow d t)) } }

end Sys2Proof.Machine
end

