-- ==== Sys2Proof/Machine/Bobbins.lean ====
section
/-! DEFINITION. The bobbin manager and hues (R241 to R256): contexts, ring operations, bindings and the
fault record of a hue. -/

namespace Sys2Proof.Machine

/-- A bobbin context (R242). -/
structure Ctx where
  base : Nat
  sizeLog : Nat
  /-- 0, 1, 2 for 16, 32, 64 bytes -/
  esize : Nat
  en : Bool
  owner : Nat
  head : Nat
  tail : Nat
  bind : Nat
  bindNum : Nat
  bindDir : Bool
  wmark : Nat
  full : Nat
  /-- a reserved bit is 1 -/
  rsv : Bool
  deriving DecidableEq, Repr

/-- The context in four 64-bit words (R242). -/
def ctxOf (w0 w1 w2 w3 : Nat) : Ctx :=
  { base := bits w0 39 0, sizeLog := bits w0 44 40, esize := bits w0 46 45, en := bit w0 47, owner := bits w0 51 48
    head := bits w1 16 0, tail := bits w1 48 32
    bind := bits w2 1 0, bindNum := bits w2 9 2, bindDir := bit w2 10, wmark := bits w2 32 16
    full := bits w3 31 0
    rsv := bits w0 63 52 != 0 || bits w1 31 17 != 0 || bits w1 63 49 != 0 || bits w2 15 11 != 0 ||
      bits w2 63 33 != 0 || bits w3 63 32 != 0 }

/-- The 32 bytes of a context, as a number (R242). -/
def ctxNat (c : Ctx) : Nat :=
  (c.base + c.sizeLog * 2 ^ 40 + c.esize * 2 ^ 45 + b2n c.en * 2 ^ 47 + c.owner * 2 ^ 48) +
  (c.head + c.tail * 2 ^ 32) * 2 ^ 64 +
  (c.bind + c.bindNum * 4 + b2n c.bindDir * 2 ^ 10 + c.wmark * 2 ^ 16) * 2 ^ 128 + c.full * 2 ^ 192

/-- The context of bobbin `q`, as the context table holds it (R241). -/
def rdCtx (d : Dev) (q : Nat) : Ctx :=
  let a := ctxBase d + 32 * q
  ctxOf (rdN d a 8) (rdN d (a + 8) 8) (rdN d (a + 16) 8) (rdN d (a + 24) 8)

/-- The context of bobbin `q` written through to the context table (R241, R279). -/
def wrCtx (q : Nat) (c : Ctx) (d : Dev) : Dev := wrN d (ctxBase d + 32 * q) 32 (ctxNat c)

/-- Bytes of an entry. -/
def entryBytes (c : Ctx) : Nat := 16 * 2 ^ c.esize

/-- Entries of the ring. -/
def ringSize (c : Ctx) : Nat := 2 ^ c.sizeLog

/-- Occupancy (R243). -/
def occ (c : Ctx) : Nat := (c.tail + 2 * ringSize c - c.head) % (2 * ringSize c)

/-- Address of the entry with count `n` (R243). -/
def entryAddr (c : Ctx) (n : Nat) : Nat := c.base + n % ringSize c * entryBytes c

/-- The context of bobbin `q` must be read from its table and cannot be (R245, R279). -/
def ctxLost (d : Dev) (q : Nat) : Bool := !d.bob.cache.contains q && eccHit d (ctxBase d + 32 * q) 32

/-- A context use touches the context cache of 256 entries (R245); which entry a miss replaces is open (R18). A context
that cannot be read is CTX_MEM_ERROR, and is not kept (R279). -/
def touchCtx (q : Nat) (d : Dev) : Dev :=
  if d.bob.cache.contains q then inc d bobHitCount
  else if ctxLost d q then captureErr .bobbin 0x0101 q (inc d bobMissCount)
  else
    let v := (freshVal d).toNat % 256
    let c := if d.bob.cache.length < 256 then d.bob.cache ++ [q] else d.bob.cache.eraseIdx v ++ [q]
    inc (freshNext { d with bob := { d.bob with cache := c } }) bobMissCount

/-- The bobbins whose context table entry holds any non-zero byte, ascending: no other can be enabled. -/
def ctxListed (d : Dev) : List Nat :=
  ((d.mem.filter (fun e => decide (ctxBase d ≤ e.1) && decide (e.1 < ctxBase d + 0x100000))).map
    (fun e => (e.1 - ctxBase d) / 32)).eraseDups

/-- The enabled bobbins. -/
def ctxEnabled (d : Dev) : List Nat := (ctxListed d).filter (fun q => (rdCtx d q).en)

/-- KiB a ring counts toward the quota (R256). -/
def ringKib (c : Ctx) : Nat := (ringSize c * entryBytes c + 1023) / 1024

/-- USED_BOBBINS and USED_KIB of hue `h` (R254, R256). -/
def hueUsed (d : Dev) (h : Nat) : Nat × Nat :=
  ((ctxEnabled d).filter (fun q => (rdCtx d q).owner == h)).foldl
    (fun a q => (a.1 + 1, a.2 + ringKib (rdCtx d q))) (0, 0)

/-- A page of H0 to H15. -/
def hueBlk (h : Nat) : Blk := .hue (Fin.ofNat 16 h)

/-- A fault enters the fault record of hue `h` (R254). -/
def hueFault (h code : Nat) (d : Dev) : Dev :=
  let d1 := inc d (hueFaultCount h)
  if rd d (hueFaultCount h) = 0 then
    wr64 (wr d1 (hueFaultCode h) code) (hueFaultFrameLo h) (hueFaultFrameHi h) d.clk.frame.toNat
  else d1

/-! ### Bindings (R250) -/

/-- The condition of a bobbin (R250). -/
def bobCond (c : Ctx) : Bool :=
  c.en && (if c.bindDir then decide (c.wmark ≤ ringSize c - occ c) else decide (c.wmark ≤ occ c))

/-- Whether the bobbin's owner may reach what it is bound to (R250). -/
def bindPermit (d : Dev) (c : Ctx) : Bool :=
  c.owner == 0 ||
  (if c.bind = 1 then rd d (bobLineHue c.bindNum) == c.owner else rd d (chChHue c.bindNum) == c.owner)

/-- The condition of bobbin `q` looked at after a change: a Spindle channel is triggered at its rise, a
withheld trigger or line spell is counted (R250). -/
def bobNotify (q : Nat) (d : Dev) : Dev :=
  let c := rdCtx d q
  let now := bobCond c
  let was := tget (fun _ => false) d.bob.cond q
  let permit := bindPermit d c
  let d1 := { d with bob := { d.bob with cond := tset (fun _ => false) d.bob.cond q now } }
  if c.bind = 2 then
    if now && !was then
      if permit then spDeliver (spAdvance c.bindNum (spTrigger c.bindNum (noSpell d1)))
      else raise .bobbin 1 (inc (noSpell d1) bobGuardCount)
    else noSpell d1
  else if c.bind = 1 then
    let held := now && !permit
    let old := tget (fun _ => false) d.bob.spell q
    let d2 := { d1 with bob := { d1.bob with spell := tset (fun _ => false) d1.bob.spell q held } }
    if held && !old then raise .bobbin 1 (inc d2 bobGuardCount) else d2
  else noSpell d1
where
  /-- A bobbin bound to no event line has no spell. -/
  noSpell (d : Dev) : Dev := { d with bob := { d.bob with spell := tset (fun _ => false) d.bob.spell q false } }

/-- LINE_HUE has changed: the bobbins bound to event lines are judged again, for a spell may begin or end (R250). -/
def bobLineHues (d : Dev) : Dev := forEach ((ctxEnabled d).filter (fun q => (rdCtx d q).bind == 1)) bobNotify d

/-- Bobbin event line `l`: asserted while the condition of any enabled, permitted bobbin bound to it holds (R250). -/
def bobLine (d : Dev) (l : Nat) : Bool :=
  (ctxEnabled d).any (fun q =>
    let c := rdCtx d q
    c.bind == 1 && c.bindNum == l && bobCond c && bindPermit d c)

/-! ### Ring operations (R246 to R248) -/

/-- The bobbin is the command ring of some hue that uses it (R262). -/
def isCmdRing (d : Dev) (q : Nat) : Bool :=
  (List.range 16).any (fun h => flag d (hueCmdValid h) && rd d (hueCmdQ h) == q)

/-- The manager takes operations: the block is enabled (R279). -/
def bobRunning (d : Dev) : Bool := flag d (hdrActive .bobbin) && !flag d (hdrSoftRst .bobbin)

/-- The code of an operation, before memory is touched: the first condition that applies (R247). `run`: the manager took
operations as this one arrived (R279). A context that cannot be read gives MEM_ERROR in the place of what it would decide,
but the owner (DESIGN CHOICE, log entry 133). -/
def bobCode (run : Bool) (d : Dev) (hue : Nat) (ext : Bool) (k : BobKind) (q : Nat) : Nat :=
  let c := rdCtx d q
  if hue ≠ 0 ∧ hue ≠ c.owner then 4
  else if ext && k == .enq && isCmdRing d q then 6
  else if !run then 3
  else if ctxLost d q then 5
  else if !c.en then 3
  else match k with
    | .enq => if ringSize c ≤ occ c then 1 else 0
    | .deq => if occ c = 0 then 2 else 0
    | .peek => if occ c = 0 then 2 else 0
    | .occ => 0

/-- A FULL result is counted in the context and in the block (R247). -/
def bobFull (q : Nat) (d : Dev) : Dev :=
  let c := rdCtx d q
  raise .bobbin 0 (inc (wrCtx q { c with full := min (c.full + 1) 0xFFFFFFFF } d) bobFullCount)

/-- A count of the ring moved on by `n` (R242). -/
def stepCount (c : Ctx) (n k : Nat) : Nat := (n + k) % (2 * ringSize c)

/-- The ring memory of an entry answers with an error: uncorrectable ECC, or, for a write, another block's guarded table
(R241, R247, R332). -/
def ringFails (d : Dev) (a n : Nat) (write : Bool) : Bool := eccHit d a n || (write && (guardOf d a n).isSome)

/-- An ENQ of the entry given: its code and the device after it (R247, R248). -/
def bobEnq (run : Bool) (hue : Nat) (ext : Bool) (q : Nat) (entry : List Byte) (err : MemErr) (d0 : Dev) : Nat × Dev :=
  let d := touchCtx q d0
  let c := rdCtx d q
  let code := bobCode run d hue ext .enq q
  if code = 1 then (1, bobFull q d)
  else if code ≠ 0 then (code, d)
  else if err ≠ .none || ringFails d (entryAddr c c.tail) (entryBytes c) true then
    (5, captureErr .bobbin 0x0100 q (match guardOf d (entryAddr c c.tail) (entryBytes c) with
      | some b => countGuard b d
      | none => d))
  else
    let d1 := wrBytes d (entryAddr c c.tail) (entry.take (entryBytes c))
    (0, bobNotify q (wrCtx q { c with tail := stepCount c c.tail 1 } d1))

/-- A DEQ or PEEK: its code, the entry and the device after it (R247, R248). -/
def bobDeq (run : Bool) (hue : Nat) (q : Nat) (keep : Bool) (err : MemErr) (d0 : Dev) : Nat × List Byte × Dev :=
  let d := touchCtx q d0
  let c := rdCtx d q
  let code := bobCode run d hue true (if keep then .peek else .deq) q
  if code ≠ 0 then (code, [], d)
  else if err ≠ .none || ringFails d (entryAddr c c.head) (entryBytes c) false then (5, [], captureErr .bobbin 0x0100 q d)
  else
    let e := rdBytes d (entryAddr c c.head) (entryBytes c)
    if keep then (0, e, d) else (0, e, bobNotify q (wrCtx q { c with head := stepCount c c.head 1 } d))

/-- HEAD advanced by `n`, at most to TAIL (R251, R252). -/
def bobConsume (hue : Nat) (q n : Nat) (d0 : Dev) : Nat × Dev :=
  let d := touchCtx q d0
  let code := bobCode (bobRunning d) d hue false .occ q
  if code ≠ 0 then (code, d)
  else
    let c := rdCtx d q
    (0, bobNotify q (wrCtx q { c with head := stepCount c c.head (min n (occ c)) } d))

/-- The status word of an operation (R247). -/
def bobStatus (code occupancy : Nat) : Word := BitVec.ofNat 64 (code + occupancy % 2 ^ 17 * 2 ^ 32)

/-! ### The context slot (R244) -/

/-- The new context breaks R242 or R243 (reason 3, BAD_CONTEXT). -/
def badCtx (d : Dev) (c : Ctx) : Bool :=
  let n := ringSize c * entryBytes c
  c.rsv || decide (c.sizeLog < 4) || decide (16 < c.sizeLog) || c.esize == 3 || c.bind == 3 ||
  (c.bind == 2 && decide (128 ≤ c.bindNum)) || c.base % 64 != 0 ||
  !((inSram c.base && inSram (c.base + n - 1)) || (inDram c.base && inDram (c.base + n - 1))) ||
  overlaps c.base n (ctxBase d) 0x100000 || overlaps c.base n (chtBase d) 0x10000 ||
  decide (c.wmark < 1) || decide (ringSize c < c.wmark) ||
  decide (2 * ringSize c ≤ c.head) || decide (2 * ringSize c ≤ c.tail) || decide (ringSize c < occ c)

/-- The reason a context write is refused, 0 for none, in the order of R244. -/
def ctxReason (d : Dev) (h q : Nat) (new : Ctx) : Nat :=
  let cur := rdCtx d q
  let used := hueUsed d new.owner
  let own := if cur.en && cur.owner == new.owner then (1, ringKib cur) else (0, 0)
  if flag d (hueResetting h) then 5
  else if h ≠ 0 ∧ h ≠ cur.owner then 1
  else if h ≠ 0 ∧ new.owner ≠ cur.owner then 4
  else if badCtx d new then 3
  else if cur.en && new.en && (cur.base != new.base || cur.sizeLog != new.sizeLog || cur.esize != new.esize ||
      cur.owner != new.owner || cur.head != new.head || cur.tail != new.tail) then 5
  else if new.en && !cur.en && (decide (rd d (hueQuotaBobbins new.owner) < used.1 - own.1 + 1) ||
      decide (rd d (hueQuotaKib new.owner) < used.2 - own.2 + ringKib new)) then 2
  else if h ≠ 0 && ((new.bind == 2 && rd d (chChHue new.bindNum) != h) ||
      (new.bind == 1 && rd d (bobLineHue new.bindNum) != h)) then 6
  else 0

/-- CTX_READ: the context fills CTX_DATA at once (R244). -/
def ctxReadSlot (h : Nat) (d0 : Dev) : Dev :=
  let q := rd d0 (hueCtxSel h)
  let d := touchCtx q d0
  forN 8 (fun i d => wr d (hueCtxData h i) (rdN d (ctxBase d + 32 * q + 4 * i) 4)) d

/-- CPL_Q of the hue is not its own, or has another ESIZE than 32 (R265). -/
def cplBadNow (d : Dev) (h : Nat) : Bool :=
  let c := rdCtx d (rd d (hueCplQ h))
  flag d (hueCplValid h) && (c.owner != h || c.esize != 1)

/-- The command ring of hue `h` can be read at a commit point (R262). -/
def cmdRingOk (d : Dev) (h : Nat) : Bool :=
  let c := rdCtx d (rd d (hueCmdQ h))
  c.en && c.owner == h && c.esize == 2

/-- The conditions of CMD_Q_INVALID and CPL_Q_INVALID have cleared where they no longer hold, so that they are recorded when
they next do (R262, R265). -/
def ringClear (d : Dev) : Dev :=
  { d with seq := { d.seq with
      cmdBad := d.seq.cmdBad.filter (fun e => flag d (hueCmdValid e.1) && !cmdRingOk d e.1)
      cplBad := d.seq.cplBad.filter (fun e => cplBadNow d e.1) } }

/-- A committed context write is checked and applied, or refused with its reason (R244, R256). -/
def ctxApply (h q : Nat) (data : List W32) (d0 : Dev) : Dev :=
  let d := touchCtx q d0
  let w (i : Nat) : Nat := (nth data (2 * i) 0).toNat + (nth data (2 * i + 1) 0).toNat * 2 ^ 32
  let new := ctxOf (w 0) (w 1) (w 2) (w 3)
  let r := ctxReason d h q new
  let d1 := wr (wr d (hueCtxStatusBusy h) 0) (hueCtxStatusReason h) r
  if r = 0 then
    ringClear (bobNotify q (wrCtx q { new with full := (rdCtx d q).full }
      (wr (wr d1 (hueCtxStatusDone h) 1) (hueCtxStatusRefused h) 0)))
  else
    let d2 := wr (wr d1 (hueCtxStatusDone h) 0) (hueCtxStatusRefused h) 1
    let d3 := doIf (r == 2) (captureErr (hueBlk h) 0x0101 q) d2
    hueFault h (0x10 + r) d3

/-! ### Doorbells (R251, R252) -/

/-- Key of a staged doorbell word: DATA0 to DATA15, and CONS_Q at place 16 (R251). -/
def stagedKey (h port i : Nat) : Nat := 32 * (256 * h + port) + i

/-- A staged doorbell word. -/
def stagedGet (d : Dev) (h port i : Nat) : W32 := tget (fun _ => 0) d.bob.staged (stagedKey h port i)

/-- A staged doorbell word set. -/
def stagedPut (h port i : Nat) (v : W32) (d : Dev) : Dev :=
  { d with bob := { d.bob with staged := tset (fun _ => 0) d.bob.staged (stagedKey h port i) v } }

/-- The result of a doorbell operation reaches DB_LAST, the counter and the fault record (R252, R254). -/
def dbResult (h port q code : Nat) (d : Dev) : Dev :=
  let d1 := wr (wr d (hueDbLastCode h) code) (hueDbLastPort h) port
  if code = 0 then d1
  else raise (hueBlk h) 0 (captureErr (hueBlk h) 0x0100 q (hueFault h code (inc d1 (hueDbRefusedCount h))))

/-- A committed doorbell ENQ (R252): refused with DISABLED while the hue is resetting (R257). -/
def dbEnqApply (h port q : Nat) (words : List W32) (d : Dev) : Dev :=
  if flag d (hueResetting h) then dbResult h port q 3 d
  else
    let r := bobEnq (bobRunning d) h false q (words.flatMap (fun w => leBytes 4 w.toNat)) .none d
    dbResult h port q r.1 r.2

/-- A committed doorbell CONSUME (R252). -/
def dbConsumeApply (h port q n : Nat) (d : Dev) : Dev :=
  if flag d (hueResetting h) then dbResult h port q 3 d
  else
    let r := bobConsume h q n d
    dbResult h port q r.1 r.2

end Sys2Proof.Machine
end

