-- ==== Sys2Proof/Machine/Softfloat.lean ====
section
/-! DEFINITION. IEEE 754-2019 binary32 and binary64 arithmetic of the FPU (R153 to R158), exact on integers and
rounded once. Flags are numbers: 1 NX, 2 UF, 4 OF, 8 DZ, 16 NV (R156). -/

namespace Sys2Proof.Machine

/-- A binary format: the widths of its exponent and fraction fields. -/
structure Fmt where
  ew : Nat
  mw : Nat
  deriving DecidableEq, Repr

/-- binary32 and binary64 (R153). -/
def fmtOf (dbl : Bool) : Fmt := if dbl then ⟨11, 52⟩ else ⟨8, 23⟩

/-- The exponent of the unit of the smallest subnormal. -/
def Fmt.low (f : Fmt) : Int := 2 - (2 ^ (f.ew - 1) : Nat) - f.mw

/-- The exponent field of infinities and NaNs, as bits. -/
def Fmt.infBits (f : Fmt) : Nat := (2 ^ f.ew - 1) * 2 ^ f.mw

/-- The sign bit. -/
def Fmt.signBit (f : Fmt) : Nat := 2 ^ (f.ew + f.mw)

/-- The canonical quiet NaN (R155). -/
def Fmt.nan (f : Fmt) : Nat := f.infBits + 2 ^ (f.mw - 1)

/-- An operand: a NaN (signalling or not), an infinity, or `m × 2^e` with a sign. -/
inductive Fp where
  | nan (signalling : Bool)
  | inf (neg : Bool)
  | fin (neg : Bool) (m : Nat) (e : Int)
  deriving DecidableEq, Repr

/-- The operand a bit pattern stands for. -/
def unpack (f : Fmt) (n : Nat) : Fp :=
  let neg := n / f.signBit % 2 == 1
  let ex := n / 2 ^ f.mw % 2 ^ f.ew
  let fr := n % 2 ^ f.mw
  if ex = 2 ^ f.ew - 1 then
    if fr = 0 then .inf neg else .nan (fr / 2 ^ (f.mw - 1) == 0)
  else if ex = 0 then .fin neg fr f.low
  else .fin neg (fr + 2 ^ f.mw) (f.low + (ex - 1 : Nat))

/-- A sign put on a magnitude. -/
def withSign (f : Fmt) (neg : Bool) (n : Nat) : Nat := if neg then n + f.signBit else n

/-- Bits needed to write `n`. -/
def bitLen (n : Nat) : Nat := if n = 0 then 0 else Nat.log2 n + 1

/-- Whether a discarded part `r` of `2^k` rounds the magnitude up (R154): mode 0 to nearest even, 1 toward zero,
2 toward positive, 3 toward negative. -/
def roundsUp (rm : Nat) (neg odd : Bool) (r k : Nat) : Bool :=
  match rm with
  | 0 => decide (2 ^ k < 2 * r) || (decide (2 ^ k = 2 * r) && odd)
  | 1 => false
  | 2 => !neg && r != 0
  | _ => neg && r != 0

/-- `m × 2^e` as a multiple of `2^q`, rounded: the multiple, and whether it is inexact. -/
def roundTo (rm : Nat) (neg : Bool) (m : Nat) (e q : Int) : Nat × Bool :=
  if q ≤ e then (m * 2 ^ (e - q).toNat, false)
  else
    let k := (q - e).toNat
    let h := m / 2 ^ k
    let r := m % 2 ^ k
    (h + b2n (roundsUp rm neg (h % 2 == 1) r k), r != 0)

/-- `m × 2^e` rounded to the format, and its flags (R154, R156, R157): tininess is judged after rounding. -/
def roundPack (f : Fmt) (rm : Nat) (neg : Bool) (m : Nat) (e : Int) : Nat × Nat :=
  if m = 0 then (withSign f neg 0, 0)
  else
    let top : Int := e + (bitLen m : Nat) - 1
    let q := max (top - f.mw) f.low
    let (h, nx) := roundTo rm neg m e q
    let n := (q - f.low).toNat * 2 ^ f.mw + h
    if f.infBits ≤ n then
      let away := rm == 0 || (rm == 2 && !neg) || (rm == 3 && neg)
      (withSign f neg (if away then f.infBits else f.infBits - 1), 5)
    else
      let u := (roundTo rm neg m e (top - f.mw)).1
      let tiny := decide (top - f.mw < f.low) &&
        decide (u * 2 ^ (top - f.mw - (top - f.mw - f.mw - 1)).toNat <
          2 ^ (f.low + f.mw - (top - f.mw - f.mw - 1)).toNat)
      (withSign f neg n, b2n nx + (if nx && tiny then 2 else 0))

/-- The NaN result of an operation that met a NaN operand (R155). -/
def nanResult (f : Fmt) (sig : Bool) : Nat × Nat := (f.nan, if sig then 16 else 0)

/-- An invalid operation (R155). -/
def invalid (f : Fmt) : Nat × Nat := (f.nan, 16)

/-- Whether an operand is a NaN, and a signalling one. -/
def Fp.isNan : Fp → Bool
  | .nan _ => true
  | _ => false
/-- A signalling NaN. -/
def Fp.isSig : Fp → Bool
  | .nan s => s
  | _ => false

/-- The operand with the other sign. -/
def Fp.neg : Fp → Fp
  | .nan s => .nan s
  | .inf s => .inf (!s)
  | .fin s m e => .fin (!s) m e

/-- The signed integer of `±m × 2^e` in units of `2^q`, for `q ≤ e`. -/
def unitsOf (neg : Bool) (m : Nat) (e q : Int) : Int :=
  let v : Int := (m * 2 ^ (e - q).toNat : Nat)
  if neg then -v else v

/-- The sum of two finite values, rounded once; an exact zero takes its sign from R154, but the sum of two zeros of one sign
keeps it, as IEEE 754 has it (R153; DESIGN CHOICE, log entry 159). -/
def addFin (f : Fmt) (rm : Nat) (s1 : Bool) (m1 : Nat) (e1 : Int) (s2 : Bool) (m2 : Nat) (e2 : Int) : Nat × Nat :=
  let q := min e1 e2
  let v := unitsOf s1 m1 e1 q + unitsOf s2 m2 e2 q
  if v = 0 then
    let neg := if m1 = 0 ∧ m2 = 0 ∧ s1 = s2 then s1 else rm == 3
    (withSign f neg 0, 0)
  else roundPack f rm (decide (v < 0)) v.natAbs q

/-- FADD (R153). -/
def fpAdd (f : Fmt) (rm : Nat) (a b : Fp) : Nat × Nat :=
  match a, b with
  | .nan s, b => nanResult f (s || b.isSig)
  | _, .nan s => nanResult f s
  | .inf s, .inf t => if s = t then (withSign f s f.infBits, 0) else invalid f
  | .inf s, _ => (withSign f s f.infBits, 0)
  | _, .inf t => (withSign f t f.infBits, 0)
  | .fin s m e, .fin t n g => addFin f rm s m e t n g

/-- FMUL (R153). -/
def fpMul (f : Fmt) (rm : Nat) (a b : Fp) : Nat × Nat :=
  match a, b with
  | .nan s, b => nanResult f (s || b.isSig)
  | _, .nan s => nanResult f s
  | .inf s, .inf t => (withSign f (s != t) f.infBits, 0)
  | .inf s, .fin t n _ => if n = 0 then invalid f else (withSign f (s != t) f.infBits, 0)
  | .fin s m _, .inf t => if m = 0 then invalid f else (withSign f (s != t) f.infBits, 0)
  | .fin s m e, .fin t n g => roundPack f rm (s != t) (m * n) (e + g)

/-- The fused product and sum A × B + C, rounded once (R153, R155). -/
def fpFma (f : Fmt) (rm : Nat) (a b c : Fp) : Nat × Nat :=
  let zeroInf := match a, b with
    | .inf _, .fin _ n _ => n == 0
    | .fin _ m _, .inf _ => m == 0
    | _, _ => false
  if zeroInf then invalid f
  else if a.isNan || b.isNan || c.isNan then nanResult f (a.isSig || b.isSig || c.isSig)
  else
    let prod : Fp := match a, b with
      | .fin s m e, .fin t n g => .fin (s != t) (m * n) (e + g)
      | .inf s, .inf t => .inf (s != t)
      | .inf s, .fin t _ _ => .inf (s != t)
      | .fin s _ _, .inf t => .inf (s != t)
      | _, _ => .nan false
    fpAdd f rm prod c

/-- FDIV (R153, R155, R156). -/
def fpDiv (f : Fmt) (rm : Nat) (a b : Fp) : Nat × Nat :=
  match a, b with
  | .nan s, b => nanResult f (s || b.isSig)
  | _, .nan s => nanResult f s
  | .inf _, .inf _ => invalid f
  | .inf s, .fin t _ _ => (withSign f (s != t) f.infBits, 0)
  | .fin s _ _, .inf t => (withSign f (s != t) 0, 0)
  | .fin s m e, .fin t n g =>
    if n = 0 then (if m = 0 then invalid f else (withSign f (s != t) f.infBits, 8))
    else
      let k := f.mw + 4 + bitLen n
      let q := m * 2 ^ k / n
      roundPack f rm (s != t) (2 * q + b2n (m * 2 ^ k % n != 0)) (e - g - k - 1)

/-- The integer square root by bits: `r` grows by `2^i` while its square stays within `n`. -/
def isqrt (n : Nat) : Nat → Nat → Nat
  | 0, r => r
  | i + 1, r => if (r + 2 ^ i) * (r + 2 ^ i) ≤ n then isqrt n i (r + 2 ^ i) else isqrt n i r

/-- FSQRT (R153, R155): the root of −0 is −0. -/
def fpSqrt (f : Fmt) (rm : Nat) (b : Fp) : Nat × Nat :=
  match b with
  | .nan s => nanResult f s
  | .inf s => if s then invalid f else (f.infBits, 0)
  | .fin s m e =>
    if m = 0 then (withSign f s 0, 0)
    else if s then invalid f
    else
      let odd := (e % 2).toNat
      let j := f.mw + 4
      let n := m * 2 ^ (odd + 2 * j)
      let r := isqrt n (bitLen n / 2 + 1) 0
      roundPack f rm false (2 * r + b2n (r * r != n)) ((e - odd) / 2 - j - 1)

/-- The order of two operands, neither a NaN, with −0 and +0 equal: the sign of A − B. -/
def fpOrder (a b : Fp) : Int :=
  match a, b with
  | .inf s, .inf t => if s = t then 0 else if s then -1 else 1
  | .inf s, _ => if s then -1 else 1
  | _, .inf t => if t then 1 else -1
  | .fin s m e, .fin t n g =>
    let q := min e g
    let v := unitsOf s m e q - unitsOf t n g q
    if v < 0 then -1 else if v = 0 then 0 else 1
  | _, _ => 0

/-- FMIN and FMAX: the chosen bit pattern (R153, R155), −0 below +0. -/
def fpMinMax (f : Fmt) (big : Bool) (na nb : Nat) : Nat × Nat :=
  let a := unpack f na
  let b := unpack f nb
  let fl := if a.isSig || b.isSig then 16 else 0
  if a.isNan && b.isNan then (f.nan, fl)
  else if a.isNan then (nb, fl)
  else if b.isNan then (na, fl)
  else
    let o := fpOrder a b
    let aNeg := na / f.signBit % 2 == 1
    let aSmaller := decide (o < 0) || (o == 0 && aNeg)
    (if aSmaller != big then na else nb, 0)

/-- The compares (R153, R155): 0 equal, 1 less, 2 less or equal, 3 unordered. -/
def fpCompare (k : Nat) (a b : Fp) : Nat × Nat :=
  let nan := a.isNan || b.isNan
  let sig := a.isSig || b.isSig
  if nan then (if k = 3 then 1 else 0, if sig || k = 1 || k = 2 then 16 else 0)
  else
    let o := fpOrder a b
    (b2n (match k with | 0 => o == 0 | 1 => decide (o < 0) | 2 => decide (o ≤ 0) | _ => false), 0)

/-- A value `n × 2^e` converted to a format (R153, R154). -/
def fpOfInt (f : Fmt) (rm : Nat) (n e : Int) : Nat × Nat := roundPack f rm (decide (n < 0)) n.natAbs e

/-- Between the formats (R153, R155, R158). -/
def fpToFmt (g : Fmt) (rm : Nat) (a : Fp) : Nat × Nat :=
  match a with
  | .nan s => nanResult g s
  | .inf s => (withSign g s g.infBits, 0)
  | .fin s m e => roundPack g rm s m e

/-- To a signed integer of `w` bits (R155, R158): out of range gives the nearest end and NV, and not NX. -/
def fpToInt (rm w : Nat) (a : Fp) : Int × Nat :=
  let hi : Int := (2 ^ (w - 1) : Nat) - 1
  let lo : Int := -(2 ^ (w - 1) : Nat)
  match a with
  | .nan _ => (0, 16)
  | .inf s => (if s then lo else hi, 16)
  | .fin s m e =>
    let (h, nx) := roundTo rm s m e 0
    let v : Int := if s then -(h : Int) else h
    if v < lo then (lo, 16) else if hi < v then (hi, 16) else (v, b2n nx)

/-- To Q1.31 (R155, R158): clamped, with NX only. -/
def fpToQ (rm : Nat) (a : Fp) : Int × Nat :=
  let hi : Int := 2 ^ 31 - 1
  let lo : Int := -2 ^ 31
  match a with
  | .nan _ => (0, 16)
  | .inf s => (if s then lo else hi, 1)
  | .fin s m e =>
    let (h, nx) := roundTo rm s m (e + 31) 0
    let v : Int := if s then -(h : Int) else h
    if v < lo then (lo, 1) else if hi < v then (hi, 1) else (v, b2n nx)

end Sys2Proof.Machine
end

