-- ==== Sys2Proof/Machine/Flags.lean ====
section
/-! DEFINITION. What the arithmetic units compute, bit for bit, with their carry and sticky flags
(R134 to R158): pure functions of the operands. -/

namespace Sys2Proof.Machine

/-- The low 32 bits as a signed integer (R136). -/
def s32 (w : Word) : Int := toSigned 32 w.toNat
/-- The word as a signed integer. -/
def s64 (w : Word) : Int := w.toInt
/-- The low 32 bits, unsigned. -/
def u32 (w : Word) : Nat := w.toNat % 2 ^ 32

/-- An exact integer result of a 32-bit operation: saturated or wrapped, then sign-extended (R136, R145). -/
def out32 (sat : Bool) (x : Int) : Word :=
  sext32 (ofSigned 32 (if sat then satSigned 32 x else x))

/-- An exact integer result of a 64-bit operation (R145). -/
def out64 (sat : Bool) (x : Int) : Word :=
  BitVec.ofInt 64 (if sat then satSigned 64 x else x)

/-- Leading zeros of the low `w` bits of `n` (R144). -/
def clz (w n : Nat) : Nat := w - bitLen (n % 2 ^ w)

/-- Leading bits equal to bit 31, less one (R144). -/
def cls32 (n : Nat) : Nat :=
  let m := n % 2 ^ 32
  clz 32 (if bit m 31 then 2 ^ 32 - 1 - m else m) - 1

/-- An ALU operation by its port offset, 8 to 0x1F: the result, and the new P0 where it writes one
(R144 to R146). -/
def aluOp (o : Nat) (a b : Word) (p0 sat : Bool) : Word × Option Bool :=
  let c := b2n p0
  match o with
  | 0x08 => (out32 sat (s32 a + s32 b), none)
  | 0x09 => (out64 sat (s64 a + s64 b), none)
  | 0x0A => (out32 sat (s32 a - s32 b), none)
  | 0x0B => (out64 sat (s64 a - s64 b), none)
  | 0x0C => (out32 false (s32 a + s32 b + c), some (decide (2 ^ 32 ≤ u32 a + u32 b + c)))
  | 0x0D => (out64 false (s64 a + s64 b + c), some (decide (2 ^ 64 ≤ a.toNat + b.toNat + c)))
  | 0x0E => (out32 false (s32 a - s32 b - c), some (decide (u32 a < u32 b + c)))
  | 0x0F => (out64 false (s64 a - s64 b - c), some (decide (a.toNat < b.toNat + c)))
  | 0x10 => (a &&& b, none)
  | 0x11 => (a ||| b, none)
  | 0x12 => (a ^^^ b, none)
  | 0x13 => (a &&& ~~~b, none)
  | 0x14 => (out64 sat (s64 a * (2 ^ (b.toNat % 64) : Nat)), none)
  | 0x15 => (a >>> (b.toNat % 64), none)
  | 0x16 => (a.sshiftRight (b.toNat % 64), none)
  | 0x17 => (out32 false (s32 a / (2 ^ (b.toNat % 32) : Nat)), none)
  | 0x18 => (BitVec.ofNat 64 (clz 32 b.toNat), none)
  | 0x19 => (BitVec.ofNat 64 (clz 64 b.toNat), none)
  | 0x1A => (BitVec.ofNat 64 (cls32 b.toNat), none)
  | 0x1B => (BitVec.ofNat 64 (b2n (a == b)), none)
  | 0x1C => (BitVec.ofNat 64 (b2n (decide (s64 a < s64 b))), none)
  | 0x1D => (BitVec.ofNat 64 (b2n (decide (a.toNat < b.toNat))), none)
  | 0x1E => (if s64 a ≤ s64 b then a else b, none)
  | _ => (if s64 a ≤ s64 b then b else a, none)

/-- A MUL operation by its port offset, 8 to 0xC (R147). -/
def mulOp (o : Nat) (a b : Word) (sat : Bool) : Word :=
  match o with
  | 0x08 => BitVec.ofInt 64 (s32 a * s32 b)
  | 0x09 => BitVec.ofNat 64 (u32 a * u32 b)
  | 0x0A => BitVec.ofInt 64 (s32 a * (u32 b : Nat))
  | 0x0B => out32 sat (s32 a * s32 b / 2 ^ 31)
  | _ => out32 sat (s32 a * s32 b)

/-- A DIV operation by its port offset, 8 to 0xF: bit 2 says 64-bit, bit 1 remainder, bit 0 unsigned
(R148 to R150). -/
def divOp (o : Nat) (a b : Word) (sat : Bool) : Word :=
  let wide := bit o 2
  let x : Int := if wide then (if bit o 0 then (a.toNat : Int) else s64 a) else (if bit o 0 then (u32 a : Int) else s32 a)
  let y : Int := if wide then (if bit o 0 then (b.toNat : Int) else s64 b) else (if bit o 0 then (u32 b : Int) else s32 b)
  let out (v : Int) : Word := if wide then BitVec.ofInt 64 v else sext32 (ofSigned 32 v)
  if y = 0 then (if bit o 1 then out x else BitVec.ofInt 64 (-1))
  else if bit o 1 then out (x.tmod y)
  else
    let q := x.tdiv y
    if sat && !bit o 0 then (if wide then out64 true q else out32 true q) else out q

/-- The cycles a DIV operation takes (R151). -/
def divCycles (o : Nat) (a b : Word) (ct : Bool) : Nat :=
  let wide := bit o 2
  if ct then (if wide then 18 else 10)
  else
    let mag (w : Word) : Nat :=
      if wide then (if bit o 0 then w.toNat else (s64 w).natAbs) else (if bit o 0 then u32 w else (s32 w).natAbs)
    let least := if wide then 4 else 2
    let minBy := !bit o 0 && (if wide then s64 a == -2 ^ 63 && s64 b == -1 else s32 a == -2 ^ 31 && s32 b == -1)
    if mag b = 0 ∨ minBy then 2 + least
    else
      let q := bitLen (mag a) + 1 - bitLen (mag b)
      2 + max least ((q + 3) / 4)

/-- An FPU operation by its port offset that is not FDIV or FSQRT: the result and its flags (R153 to R158). -/
def fpuOp (o rm : Nat) (a b c : Word) : Word × Nat :=
  let dbl := decide (0x18 ≤ o) && decide (o < 0x28)
  let f := fmtOf dbl
  let cut (w : Word) : Nat := if dbl then w.toNat else u32 w
  let x := unpack f (cut a)
  let y := unpack f (cut b)
  let z := unpack f (cut c)
  let out (r : Nat × Nat) : Word × Nat := (BitVec.ofNat 64 r.1, r.2)
  let int32 (r : Int × Nat) : Word × Nat := (Config.fcvtHigh o b ++ BitVec.ofInt 32 r.1, r.2)
  let sfl := unpack (fmtOf false) (u32 b)
  let dfl := unpack (fmtOf true) b.toNat
  match (if dbl then o - 16 else o) with
  | 0x08 => out (fpAdd f rm x y)
  | 0x09 => out (fpAdd f rm x y.neg)
  | 0x0A => out (fpMul f rm x y)
  | 0x0B => out (fpFma f rm x y z)
  | 0x0C => out (fpFma f rm x y z.neg)
  | 0x0D => out (fpFma f rm x.neg y z)
  | 0x0E => out (fpMinMax f false (cut a) (cut b))
  | 0x0F => out (fpMinMax f true (cut a) (cut b))
  | 0x10 => out (fpCompare 0 x y)
  | 0x11 => out (fpCompare 1 x y)
  | 0x12 => out (fpCompare 2 x y)
  | 0x13 => out (fpCompare 3 x y)
  | 0x28 => out (fpToFmt (fmtOf true) rm sfl)
  | 0x29 => out (fpToFmt (fmtOf false) rm dfl)
  | 0x2A => out (fpOfInt (fmtOf false) rm (s32 b) 0)
  | 0x2B => out (fpOfInt (fmtOf true) rm (s32 b) 0)
  | 0x2C => out (fpOfInt (fmtOf true) rm (s64 b) 0)
  | 0x2D => int32 (fpToInt rm 32 sfl)
  | 0x2E => int32 (fpToInt rm 32 dfl)
  | 0x2F => (BitVec.ofInt 64 (fpToInt rm 64 dfl).1, (fpToInt rm 64 dfl).2)
  | 0x30 => out (fpOfInt (fmtOf false) rm (s32 b) (-31))
  | 0x31 => out (fpOfInt (fmtOf true) rm (s32 b) (-31))
  | 0x32 => int32 (fpToQ rm sfl)
  | _ => int32 (fpToQ rm dfl)

/-- The delay of such an operation, in bundles (R111, R153). -/
def fpuDelay (o : Nat) : Nat :=
  let k := if decide (0x18 ≤ o) && decide (o < 0x28) then o - 16 else o
  if k < 0x0E then 4 else 2

/-- FDIV or FSQRT: result, flags and cycles (R153, R115). -/
def fpuIter (root dbl : Bool) (rm : Nat) (a b : Word) : Word × Nat × Nat :=
  let f := fmtOf dbl
  let cut (w : Word) : Nat := if dbl then w.toNat else u32 w
  let r := if root then fpSqrt f rm (unpack f (cut b)) else fpDiv f rm (unpack f (cut a)) (unpack f (cut b))
  (BitVec.ofNat 64 r.1, r.2,
    if root then (if dbl then 19 else 10) else (if dbl then 17 else 9))

/-! ### CMAC (R134 to R143) -/

/-- The lo or real, and the hi or imaginary part of an operand (R134). -/
def lo32 (w : Word) : Int := s32 w
/-- The part in bits 63 to 32. -/
def hi32 (w : Word) : Int := toSigned 32 (w.toNat / 2 ^ 32)

/-- What an accumulator-writing operation does, by its port offset, from OPX, OPY and the value moved (R138, R142). -/
def cmacOp (o : Nat) (x y v : Word) : AccOp × Bool :=
  let xr := lo32 x; let xi := hi32 x
  let vr := lo32 v; let vi := hi32 v
  let mulRe := xr * vr - xi * vi
  let mulIm := xr * vi + xi * vr
  let cjRe := xr * vr + xi * vi
  let cjIm := xi * vr - xr * vi
  let qRe := xr * lo32 y + xi * hi32 y
  let qIm := xr * vr + xi * vi
  match o / 4 with
  | 2 => (.set mulRe mulIm, false)
  | 3 => (.set cjRe cjIm, false)
  | 4 => (.add mulRe mulIm, true)
  | 5 => (.add cjRe cjIm, true)
  | 6 => (.add (-mulRe) (-mulIm), true)
  | 7 => (.add (-cjRe) (-cjIm), true)
  | 8 => (.add qRe qIm, true)
  | 9 => (.add (-qRe) (-qIm), true)
  | 10 => (.set qRe qIm, false)
  | 11 => (.set 0 0, false)
  | _ => (.raw (v.toNat % 4) x, false)

/-- One part of an accumulator after adding `x`: clamped or wrapped, and the STAT flag that sets (R140, R143). -/
def accPart (sat : Bool) (a : BitVec 72) (x : Int) : BitVec 72 × Nat :=
  let v := a.toInt + x
  if fitsSigned 72 v then (BitVec.ofInt 72 v, 0)
  else if sat then (BitVec.ofInt 72 (satSigned 72 v), 1)
  else (BitVec.ofInt 72 v, 2)

/-- A part of an accumulator after RAWW of the part number given: real parts are 0 and 1 (R142). -/
def rawWrite (imag : Bool) (part : Nat) (v : Word) (a : BitVec 72) : BitVec 72 :=
  if (part / 2 == 1) != imag then a
  else if part % 2 = 0 then a.extractLsb' 64 8 ++ v
  else v.truncate 8 ++ a.truncate 64

/-- The accumulator after an operation, and the STAT flags it sets (R138 to R143). -/
def accApply (op : AccOp) (sat : Bool) (re im : BitVec 72) : BitVec 72 × BitVec 72 × Nat :=
  match op with
  | .set r i => (BitVec.ofInt 72 r, BitVec.ofInt 72 i, 0)
  | .add r i =>
    let a := accPart sat re r
    let b := accPart sat im i
    (a.1, b.1, a.2 ||| b.2)
  | .raw part v => (rawWrite false part v re, rawWrite true part v im, 0)

/-- One extracted part: floor(A × 2^(s − 31)), its 32 bits, and the STAT flags (R141, R143). -/
def extrPart (s : Int) (sat : Bool) (a : BitVec 72) : Nat × Nat :=
  let r : Int := if 31 ≤ s then a.toInt * (2 ^ (s - 31).toNat : Nat) else a.toInt / (2 ^ (31 - s).toNat : Nat)
  if fitsSigned 32 r then (ofSigned 32 r, 0)
  else if sat then (ofSigned 32 (satSigned 32 r), 4)
  else (ofSigned 32 r, 8)

/-- EXTR (R141). -/
def extrOp (xsh : Word) (sat : Bool) (re im : BitVec 72) : Word × Nat :=
  let s := toSigned 6 xsh.toNat
  let a := extrPart s sat re
  let b := extrPart s sat im
  (BitVec.ofNat 64 (a.1 + b.1 * 2 ^ 32), a.2 ||| b.2)

/-- RAWX (R142). -/
def rawxOp (part : Nat) (re im : BitVec 72) : Word :=
  let a := if part / 2 = 1 then im else re
  if part % 2 = 0 then a.truncate 64 else (a.extractLsb' 64 8).signExtend 64

end Sys2Proof.Machine
end

