-- ==== Sys2Proof/Machine/Operands.lean ====
section
/-! DEFINITION. The core's ports (R95 to R100, R126, R138 to R153, R166, R172, R182, R205, R246): which can be
read, which can be written, their widths and reset values, the fields of a bundle (R101, R102), and the
addressing words of the LSUs (R167, R168). -/

namespace Sys2Proof.Machine

/-- What a destination port does with a move (R95, R97). -/
inductive PortKind where
  /-- a register or CSR: visible to the next bundle -/
  | reg
  /-- an operand port: latched before the bundle's triggers -/
  | operand
  | trigger
  /-- reserved, or not writable -/
  | none
  deriving DecidableEq, Repr

/-- Base of the unit range that holds a port from 0x100 up (R97). -/
def unitBase (p : Nat) : Nat :=
  if p < 0x200 then 0x100 + (p - 0x100) / 64 * 64
  else if p < 0x280 then 0x200 + (p - 0x200) / 64 * 64
  else if p < 0x300 then 0x280 + (p - 0x280) / 32 * 32
  else if p < 0x340 then 0x300
  else if p < 0x380 then 0x340
  else if p < 0x3C0 then 0x380
  else if p < 0x400 then 0x3C0
  else 0x400

/-- A port of the CU (R117, R182, R205). -/
def cuKind (p : Nat) : PortKind :=
  if p < 0x3C6 then .trigger
  else if p < 0x3C8 then .none
  else if p < 0x3E0 then
    match (p - 0x3C8) % 8 with
    | 0 => .operand
    | 1 => .operand
    | 2 => .trigger
    | 3 => .trigger
    | 4 => .reg
    | _ => .none
  else if p = 0x3E0 then .operand
  else if p = 0x3E1 then .trigger
  else .none

/-- What a destination port ID does (R97, R126 and the units' tables). A CSR all of whose fields are read-only takes
the move and ignores it (R126). -/
def portKind (p : Nat) : PortKind :=
  if p < 0xD8 then .reg
  else if p < 0xE0 then .none
  else if p < 0xFB then .reg
  else if p < 0x100 then .none
  else if p < 0x200 then
    let o := (p - 0x100) % 64
    if o = 0 ∨ o = 2 ∨ o = 3 ∨ o = 4 then .operand
    else if o = 5 then .reg
    else if decide (8 ≤ o) && decide (o < 0x3C) then .trigger else .none
  else if p < 0x280 then
    let o := (p - 0x200) % 64
    if o = 0 ∨ (2 ≤ o ∧ o ≤ 5) then .operand
    else if (0x10 ≤ o ∧ o ≤ 0x19) ∨ (0x20 ≤ o ∧ o ≤ 0x26) then .trigger else .none
  else if p < 0x300 then
    let o := (p - 0x280) % 32
    if o = 0 ∨ o = 2 then .operand else if 8 ≤ o then .trigger else .none
  else if p < 0x340 then
    let o := p - 0x300
    if o = 0 ∨ o = 2 then .operand else if 8 ≤ o ∧ o ≤ 0xC then .trigger else .none
  else if p < 0x380 then
    let o := p - 0x340
    if o = 0 ∨ o = 2 ∨ o = 3 then .operand
    else if (8 ≤ o ∧ o ≤ 0x15) ∨ (0x18 ≤ o ∧ o ≤ 0x25) ∨ (0x28 ≤ o ∧ o ≤ 0x33) then .trigger else .none
  else if p < 0x3C0 then
    let o := p - 0x380
    if o = 0 ∨ o = 2 then .operand else if 8 ≤ o ∧ o ≤ 0xF then .trigger else .none
  else if p < 0x400 then cuKind p
  else if p < 0x480 then
    let o := p - 0x400
    if o = 0 ∨ o = 2 ∨ o = 3 ∨ (0x40 ≤ o ∧ o ≤ 0x47) then .operand
    else if (0x10 ≤ o ∧ o ≤ 0x14) ∨ (0x18 ≤ o ∧ o ≤ 0x23) ∨ o = 0x28 ∨ (0x50 ≤ o ∧ o ≤ 0x53) then .trigger
    else .none
  else .none

/-- A port a slot may name as its source (R97): registers, special sources, CSRs, operand, result and status ports. -/
def readable (p : Nat) : Bool :=
  if p < 0xD8 then true
  else if p < 0xE0 then decide (p ≤ 0xDA)
  else if p < 0x100 then decide (p < 0xFB)
  else if p < 0x200 then decide ((p - 0x100) % 64 ≤ 5)
  else if p < 0x280 then decide ((p - 0x200) % 64 ≤ 5)
  else if p < 0x300 then decide ((p - 0x280) % 32 ≤ 2)
  else if p < 0x340 then decide (p - 0x300 ≤ 2)
  else if p < 0x380 then decide (p - 0x340 ≤ 4)
  else if p < 0x3C0 then decide (p - 0x380 ≤ 3)
  else if p < 0x3C8 then false
  else if p < 0x3E0 then
    let o := (p - 0x3C8) % 8
    o == 0 || o == 1 || o == 4
  else if p < 0x400 then p == 0x3E0 || p == 0x3E2
  else if p < 0x480 then decide (p - 0x400 ≤ 4) || (decide (0x440 ≤ p) && decide (p ≤ 0x447))
  else false

/-- A CU control trigger port (R117, R182, R205). -/
def cuControl (p : Nat) : Bool := decide (0x3C0 ≤ p) && decide (p < 0x400) && cuKind p == .trigger

/-- A register that DST may name (R100): G, A, M, L or P. -/
def dstReg (p : Nat) : Bool := decide (p < 0xD8)

/-- The bits a port keeps of a value moved to it (R99 and the tables). -/
def portMask (p : Nat) : Nat :=
  if p < 0x80 then 2 ^ 64 - 1
  else if p < 0xA0 then 2 ^ 40 - 1
  else if p < 0xC0 then 2 ^ 64 - 1
  else if p < 0xD0 then 2 ^ 24 - 1
  else if p < 0xD8 then 1
  else if p < 0x100 then
    match p with
    | 0xE0 => 0x1F
    | 0xE1 => 0x1F
    | 0xE8 => 0xF
    | 0xE9 => 2 ^ 40 - 64
    | 0xEA => 0x1FFF
    | 0xEB => 2 ^ 40 - 64
    | 0xEC => 0xFFFFF
    | 0xED => 2 ^ 40 - 1
    | 0xF5 => 0xF
    | 0xF6 => 2 ^ 40 - 2 ^ 12
    | 0xF7 => 2 ^ 40 - 2 ^ 12
    | 0xF8 => 7
    | 0xF9 => 0x3F
    | _ => 0
  else if decide (0x3C0 ≤ p) && decide (p < 0x400) then
    if p = 0x3E0 then 2 ^ 32 - 1
    else match (p - 0x3C8) % 8 with
      | 0 => 2 ^ 40 - 64
      | 1 => 2 ^ 40 - 64
      | 4 => 0xF3FFFFFFFF
      | _ => 2 ^ 64 - 1
  else if p = unitBase p then 0xFFF
  else if p < 0x200 then (if (p - 0x100) % 64 = 4 then 0x3F else if (p - 0x100) % 64 = 5 then 0xF else 2 ^ 64 - 1)
  else if p = 0x403 then 2 ^ 40 - 1
  else 2 ^ 64 - 1

/-- The value of a port at reset: DST 0xFFF, the FEAT constants, and 0 otherwise (R100, R126). -/
def portReset (p : Nat) : Word :=
  if p < 0x100 then
    match p with
    | 0xE2 => 0x7040204
    | 0xE3 => 0x420800200
    | 0xE4 => 0x1044F3
    | 0xE5 => 1
    | _ => 0
  else if p = unitBase p ∧ p ≠ 0x3C0 then 0xFFF
  else 0

/-- One move of a bundle (R102). -/
structure Slot where
  n : Nat
  guard : Nat
  imm : Bool
  src : Nat
  dst : Nat
  sat : Bool
  deriving DecidableEq, Repr

/-- Slot `k` of a bundle (R101, R102). -/
def slotOf (b k : Nat) : Slot :=
  let w := bits b (32 + 30 * k + 29) (32 + 30 * k)
  { n := k, guard := bits w 29 26, imm := bit w 25, src := bits w 24 13, dst := bits w 12 1, sat := bit w 0 }

/-- The slots of a bundle that are not guarded never (R103). -/
def slotsOf (b : Nat) : List Slot := ((List.range 16).map (slotOf b)).filter (fun s => s.guard != 8)

/-- FMT of a bundle (R101). -/
def fmtField (b : Nat) : Nat := bits b 31 30

/-- The immediate of a slot, sign-extended (R104). -/
def immOf (s : Slot) : Word := (BitVec.ofNat 12 s.src).signExtend 64

/-- The first slot of a list that meets a condition. -/
def firstSlot (l : List Slot) (f : Slot → Bool) : Option Nat := (l.find? f).map Slot.n

/-- Why a bundle is illegal, and its lowest slot concerned: the first reason of R106 that applies. -/
def illegal (b : Nat) : Option (Nat × Nat) :=
  let l := slotsOf b
  let fmt := fmtField b
  let same (s : Slot) : Bool := l.any (fun t => t.n != s.n && t.dst == s.dst)
  let cu (s : Slot) : Bool := cuControl s.dst && l.any (fun t => t.n != s.n && cuControl t.dst)
  let limm (s : Slot) : Bool := !s.imm && (s.src == 0xD8 || s.src == 0xD9) && fmt != 1
  let badSrc (s : Slot) : Bool := !s.imm && !readable s.src
  let badDst (s : Slot) : Bool := portKind s.dst == .none
  if fmt = 3 then some (1, 0)
  else if bits b 28 24 ≠ 0 ∨ (fmt ≠ 1 ∧ bits b 23 0 ≠ 0) then some (2, 0)
  else match firstSlot l same with
    | some n => some (3, n)
    | none => match firstSlot l cu with
      | some n => some (4, n)
      | none => match firstSlot l limm with
        | some n => some (5, n)
        | none => match firstSlot l badSrc with
          | some n => some (6, n)
          | none => (firstSlot l badDst).map (fun n => (7, n))

/-- The smallest power of two not less than `n` (R168). -/
def pow2Above (n : Nat) : Nat := if n ≤ 1 then 1 else 2 ^ (Nat.log2 (n - 1) + 1)

/-- The circular update of R168. -/
def wrapAddr (an : Nat) (mm : Int) (l : Nat) : Nat :=
  let base : Int := (an / pow2Above l * pow2Above l : Nat)
  let a := (an : Int) + mm
  let a1 := if base + l ≤ a then a - l else a
  let a2 := if a1 < base then a1 + l else a1
  ofSigned 40 a2

/-- An addressing word (R167): the effective address, and the updated An, from An, Mm and L(n mod 16). -/
def addrWord (mode an mm l : Nat) : Nat × Option Nat :=
  let m := toSigned 40 mm
  let sum := ofSigned 40 ((an : Int) + m)
  match mode with
  | 0 => (an, none)
  | 1 => (an, some sum)
  | 2 => (an, some (if l = 0 then sum else wrapAddr an m l))
  | _ => (sum, none)

end Sys2Proof.Machine
end

