-- ==== Sys2Proof/Machine/Cores.lean ====
section
/-! DEFINITION. A core pair's registers, the landing of results (R111, R113, R143, R156), the synchronised class
(R123), faults (R107, R108) and interrupt entry (R128 to R131). -/

namespace Sys2Proof.Machine

/-! ### Ports -/

/-- A port's stored value. -/
def Core.port (c : Core) (id : Nat) : Word := tget portReset c.ports id

/-- A port's stored value set; both plies then hold it (R364). -/
def Core.put (id : Nat) (v : Word) (c : Core) : Core :=
  { c with ports := tset portReset c.ports id v, plyB := tset (fun _ => none) c.plyB id none }

/-- A port as a number. -/
def Core.num (c : Core) (id : Nat) : Nat := (c.port id).toNat

/-- Bundles issued since reset. -/
def Core.issued (c : Core) : Nat := c.num 0xEF

/-- A hardware-counted CSR raised by `n`: the counters of 32 bits saturate, CYCLE and ISSUED wrap (R126). -/
def Core.count (id n : Nat) (c : Core) : Core :=
  if id < 0xF0 then c.put id (BitVec.ofNat 64 (c.num id + n))
  else c.put id (BitVec.ofNat 64 (min (c.num id + n) 0xFFFFFFFF))

/-- CYCLE moved on (R126). -/
def Core.spend (n : Nat) (c : Core) : Core := c.count 0xEE n

/-- The current level (R126). -/
def Core.level (c : Core) : Nat := c.num 0xE7

/-- P0 to P7 as eight bits (R126, R372). -/
def Core.preds (c : Core) : Nat := (List.range 8).foldl (fun a i => a + c.num (0xD0 + i) % 2 * 2 ^ i) 0

/-- P0 to P7 restored. -/
def Core.setPreds (v : Nat) (c : Core) : Core :=
  (List.range 8).foldl (fun c i => c.put (0xD0 + i) (BitVec.ofNat 64 (v / 2 ^ i % 2))) c

/-- MODE in force: CT and the rounding mode (R126). -/
def Core.ct (c : Core) : Bool := bit (c.num 0xE0) 1
/-- Static prediction is in force: SP, or CT (R122). -/
def Core.sp (c : Core) : Bool := bit (c.num 0xE0) 0 || c.ct
/-- MODE.RM (R154). -/
def Core.rm (c : Core) : Nat := bits (c.num 0xE0) 3 2

/-- Region `r`'s CSR: 0 BASE, 1 LIMIT, 2 ATTR (R173). -/
def Core.region (c : Core) (r k : Nat) : Word := tget (fun _ => 0) c.regions (4 * r + k)

/-- The attribute an EXT access to address `a` has: 0 uncached, 1 write-through, 2 write-back (R173). -/
def Core.attr (c : Core) (a : Nat) : Nat :=
  if !(inSram a || inDram a) then 0
  else
    let hit (r : Nat) : Bool :=
      bit (c.region r 2).toNat 0 && decide ((c.region r 0).toNat ≤ a) && decide (a / 0x1000 ≤ (c.region r 1).toNat / 0x1000)
    match (List.range 16).find? hit with
    | none => 0
    | some r => let k := bits (c.region r 2).toNat 2 1; if k = 3 then 0 else k

/-- The slot SAVE_SEL names: key of its return address, if it names one (R126, R131). -/
def Core.saveKey (c : Core) : Option Nat := if c.num 0xE8 = 0 then none else some (2 * c.num 0xE8)

/-- A word of the save slots. -/
def Core.saved (c : Core) (k : Nat) : Word := tget (fun _ => 0) c.save k

/-- A source port as a bundle reads it (R98, R99, R126): pair `p`, `limm` the header's immediate. -/
def Core.read (c : Core) (p limm id : Nat) : Word :=
  if id = 0xD8 then (BitVec.ofNat 24 limm).signExtend 64
  else if id = 0xD9 then BitVec.ofNat 64 limm
  else if id = 0xDA then BitVec.ofNat 64 c.pc
  else if id = 0xE6 then BitVec.ofNat 64 p
  else if id = 0xE9 then (match c.saveKey with | some k => c.saved k | none => 0)
  else if id = 0xEA then (match c.saveKey with | some k => c.saved (k + 1) | none => 0)
  else if id = 0xF6 then c.region (c.num 0xF5) 0
  else if id = 0xF7 then c.region (c.num 0xF5) 1
  else if id = 0xF8 then c.region (c.num 0xF5) 2
  else if id = 0x344 then BitVec.ofNat 64 (b2n c.fpi.isSome)
  else if id = 0x383 then BitVec.ofNat 64 (b2n c.div.isSome)
  else if id = 0x404 then BitVec.ofNat 64 c.wb.length
  else if decide (0x3C8 ≤ id) && decide (id < 0x3E0) && (id - 0x3C8) % 8 == 4 then
    (match tget (fun _ => none) c.lstate ((id - 0x3C8) / 8) with | some v => v | none => c.port id)
  else c.port id

/-! ### Landing -/

/-- An effect put on its way with delay `k` (R111). -/
def Core.send (k : Nat) (e : Eff) (c : Core) : Core :=
  { c with pipe := c.pipe ++ [⟨c.issued, c.issued + k, e⟩] }

/-- A unit's result on its way: to RES and, if DST names a register, to it (R100). -/
def Core.result (base k : Nat) (v : Word) (c : Core) : Core :=
  let c1 := c.send k (.port (base + 1) v)
  if dstReg (c.num base) then c1.send k (.port (c.num base) v) else c1

/-- A value reaches a port: a register keeps its width (R99), SAVE_PC and SAVE_STAT are written under the number
0x1000 + key of their slot, the counters clear, read-only CSRs ignore it (R126). -/
def Core.portLand (id : Nat) (v : Word) (c : Core) : Core :=
  if 0x1000 ≤ id then { c with save := tset (fun _ => 0) c.save (id - 0x1000) v }
  else if decide (0xF0 ≤ id) && decide (id ≤ 0xF4) then c.put id 0
  else if decide (0x3C8 ≤ id) && decide (id < 0x3E0) && (id - 0x3C8) % 8 == 4 then
    let w := v &&& BitVec.ofNat 64 (portMask id)
    { c with lstate := tset (fun _ => none) c.lstate ((id - 0x3C8) / 8) (some w) }
  else if portMask id = 0 then c
  else c.put id (v &&& BitVec.ofNat 64 (portMask id))

/-- Part keys of accumulator `k` of CMAC `u`. -/
def accKey (u k : Nat) : Nat := 8 * u + 2 * k

/-- A part of an accumulator (R135). -/
def Core.accGet (c : Core) (i : Nat) : BitVec 72 := tget (fun _ => 0) c.acc i

/-- An accumulator operation is applied (R139, R140). -/
def Core.accLand (u k : Nat) (op : AccOp) (sat : Bool) (c : Core) : Core :=
  let r := accApply op sat (c.accGet (accKey u k)) (c.accGet (accKey u k + 1))
  let st := 0x105 + 64 * u
  { c with
    acc := tset (fun _ => 0) (tset (fun _ => 0) c.acc (accKey u k) r.1) (accKey u k + 1) r.2.1
    ports := tset portReset c.ports st (c.port st ||| BitVec.ofNat 64 r.2.2) }

/-- One effect lands. -/
def landEff (p : Nat) (e : Eff) (d : Dev) : Dev :=
  match e with
  | .port id v => onCore p (Core.portLand id v) d
  | .acc u k op sat => onCore p (Core.accLand u k op sat) d
  | .stat u f => onCore p (fun c => c.put (0x105 + 64 * u) (c.port (0x105 + 64 * u) ||| BitVec.ofNat 64 f)) d
  | .statClear u => onCore p (Core.put (0x105 + 64 * u) 0) d
  | .flags f => onCore p (fun c => c.put 0xE1 (c.port 0xE1 ||| BitVec.ofNat 64 f)) d
  | .fstat v => onCore p (Core.put 0xE1 (v &&& 0x1F)) d
  | .store _ a data => wrBytes (onCore p (Core.heal a data.length) d) (localBase p + a) data

/-- A move to STAT or to FSTAT. -/
def Eff.isMove : Eff → Bool
  | .statClear _ => true
  | .fstat _ => true
  | _ => false
/-- A move to FSTAT. -/
def Eff.isFstat : Eff → Bool
  | .fstat _ => true
  | _ => false
/-- Flags on their way to FSTAT. -/
def Eff.isFlags : Eff → Bool
  | .flags _ => true
  | _ => false

/-- Everything due for bundle `n` lands: moves to STAT and FSTAT before settings of the same cycle, flags that meet
a move to FSTAT one bundle later, the rest in the order of the triggers (R113, R143, R156). -/
def landDue (p n : Nat) (d : Dev) : Dev :=
  let c := core d p
  let now := c.pipe.filter (fun l => decide (l.due ≤ n))
  let later := c.pipe.filter (fun l => decide (n < l.due))
  let meets := now.any (fun l => l.eff.isFstat)
  let put := now.filter (fun l => l.eff.isMove)
  let run := now.filter (fun l => !l.eff.isMove && !(meets && l.eff.isFlags))
  let held := if meets then (now.filter (fun l => l.eff.isFlags)).map (fun l => { l with due := n + 1 }) else []
  let d1 := setCore p { c with pipe := held ++ later } d
  forEach run (fun l => landEff p l.eff) (forEach put (fun l => landEff p l.eff) d1)

/-- The results due by now have landed, as the next bundle to issue sees them (R111). -/
def settle (p : Nat) (d : Dev) : Dev := landDue p (core d p).issued d

/-- Every fixed-latency result lands: the drain of an entry, of a SYNC bundle (R124, R128). -/
def drain (p : Nat) (d : Dev) : Dev :=
  (List.range 6).foldl (fun x i => landDue p ((core d p).issued + i) x) d

/-- A write to the synchronised class takes effect (R123, R173). -/
def Core.syncLand (w : SyncWr) (c : Core) : Core :=
  let v := w.v &&& BitVec.ofNat 64 (portMask w.port)
  if decide (0xF6 ≤ w.port) && decide (w.port ≤ 0xF8) then
    { c with regions := tset (fun _ => 0) c.regions (4 * w.sel + (w.port - 0xF6)) v }
  else c.put w.port v

/-- The synchronised writes that govern bundle `n` take effect, in the order of their bundles (R123). -/
def Core.syncDue (n : Nat) (c : Core) : Core :=
  (c.sync.filter (fun w => decide (w.due ≤ n))).foldl (fun c w => c.syncLand w)
    { c with sync := c.sync.filter (fun w => decide (n < w.due)) }

/-- Every pending synchronised write takes effect (R124, R125). -/
def Core.syncAll (c : Core) : Core := c.sync.foldl (fun c w => c.syncLand w) { c with sync := [] }

/-- The loop states moved to LSTATE take effect: a taken branch, an RTI or a SYNC (R186). A level restored so was not
armed by an LCOUNT (R184). -/
def Core.loopStates (c : Core) : Core :=
  (List.range 3).foldl (fun c k => match tget (fun _ => none) c.lstate k with
    | some v => { c.put (0x3CC + 8 * k) v with
        lstate := tset (fun _ => none) c.lstate k none, armed := tset (fun _ => 0) c.armed k 0 }
    | none => c) c

/-! ### Scoreboard -/

/-- Whether register `id` waits for a scoreboarded result (R115). -/
def Core.busy (c : Core) (id : Nat) : Bool :=
  let hit (o : Option IterOp) : Bool := match o with | some x => x.dst == id | none => false
  dstReg id && (hit c.div || hit c.fpi || c.ext.any (fun e => e.dst == id))

/-- A scoreboarded result lands in its DST, and its write of a G register loads the bank in this cycle (R109, R115). -/
def Core.landDst (dst : Nat) (v : Word) (c : Core) : Core :=
  let c1 := if dstReg dst then c.portLand dst v else c
  if dst < 0x80 then { c1 with landed := dst :: c1.landed } else c1

/-- The effects on their way to port `id`. -/
def Core.bound (id : Nat) (c : Core) : List Landing :=
  c.pipe.filter (fun l => match l.eff with | .port x _ => x == id | _ => false)

/-- Flags of an iterative result due in cycle `due` reach FSTAT; where a move to FSTAT lands in that cycle too, in the
next (R156). -/
def Core.orFlags (f due : Nat) (c : Core) : Core :=
  if f = 0 then c
  else if c.landAt == due && c.pipe.any (fun l => l.eff.isFstat && decide (l.due ≤ c.issued)) then c.send 0 (.flags f)
  else c.put 0xE1 (c.port 0xE1 ||| BitVec.ofNat 64 f)

/-- Of the writes of one cycle to one register the one triggered later stays: older effects due in the cycle in which
the iterative result `o` lands are lost to it, and younger ones land after it (R113). -/
def Core.outrun (o : IterOp) (c : Core) : Core :=
  if c.landAt = o.due then { c with pipe := (o.older.filter (fun l => decide (l.due ≤ c.issued))).foldl List.erase c.pipe } else c

/-- An iterative result lands: RES, DST and the flags, and CYCLE reaches the landing (R113, R115, R151, R156). -/
def Core.iterLand (base : Nat) (o : IterOp) (c : Core) : Core :=
  let c1 := ((((c.outrun o).put (base + 1) o.v).landDst o.dst o.v)).orFlags o.flags o.due
  c1.spend (o.due - c1.num 0xEE)

/-- An iterative result of pair `p` lands, after what landed in an earlier cycle (R113, R156). -/
def iterLand (p base : Nat) (o : IterOp) (d : Dev) : Dev :=
  onCore p (Core.iterLand base o) (if (core d p).landAt < o.due then settle p d else d)

/-! ### Events and faults entered -/

/-- A wait ends; WSTAT shows why (R205, R206). -/
def Core.wake (wstat : Nat) (c : Core) : Core := { c.put 0x3E2 (BitVec.ofNat 64 wstat) with waiting := none }

/-- `k` PCLK cycles of a wait of core `n` counted (R206). -/
def countWait (n k : Nat) (d : Dev) : Dev :=
  incN (onCore n (fun c => { c with passed := c.passed + k }.spend (4 * k)) d) (evcWaitCycles n) k

/-- The PCLK cycles that a wait of core `n` has lasted since they were last counted, at a moment before its timeout: fewer
than are left of the timeout, and otherwise open, for the model has no clock of its own (R206; log entry 130). -/
def waited (n : Nat) (d : Dev) : Dev :=
  match (core d n).waiting with
  | none => d
  | some t =>
    let room := if t = 0 then 2 ^ 32 else t - (core d n).passed
    freshNext (countWait n ((freshVal d).toNat % max 1 room) d)

/-- Core `n` is powered, not frozen, not quarantined, and not halted by a double fault (R194). -/
def canServe (d : Dev) (n : Nat) : Bool := pstate d n == 1 || pstate d n == 7

/-- Cores of the watched group that can take events (R207). -/
def stillGroup (d : Dev) : List Nat :=
  (List.range 12).filter (fun n => bit (rd d evcStillGroup) n && canServe d n)

/-- Every core of the watched group waits (R207). -/
def allWait (d : Dev) : Bool := (stillGroup d).all (fun n => (core d n).waiting.isSome)

/-- The spell ends when some core of the group is out of its wait (R207). -/
def stillCheck (d : Dev) : Dev :=
  if allWait d then d
  else if rd d evcStillLimit = 0 then wr d evcStillCount 0
  else wr { d with evc := { d.evc with fired := false } } evcStillCount 0

/-- The save slot of level `l` written from the interrupted program: return address, predicates, status (R131). -/
def Core.saveSlot (l : Nat) (fault : Bool) (c : Core) : Core :=
  let stat := c.preds + c.level * 2 ^ 8 + b2n fault * 2 ^ 12
  { c with save := tset (fun _ => 0) (tset (fun _ => 0) c.save (2 * l) (BitVec.ofNat 64 c.pc)) (2 * l + 1) (BitVec.ofNat 64 stat) }

/-- The drain of an entry: every result lands, synchronised writes complete (R125, R128). -/
def entryDrain (p : Nat) (d : Dev) : Dev := onCore p (fun c => c.syncAll) (drain p d)

/-- The prefetch queue is flushed and fetch starts at `a` (R118). -/
def Core.goto (a : Nat) (c : Core) : Core := { c with pc := a % 2 ^ 40 / 64 * 64, queue := [], miss := none }

/-- A double fault: both plies stop and HALTED is asserted (R108, R381). -/
def doubleFault (p : Nat) (d : Dev) : Dev :=
  let c := core d p
  let d1 := wr (onCore p (fun c => { c with entry := none, waiting := none }) d) (plyPstateState p) 6
  logEv 0x2005 0 2 [(8, c.num 0xED), (4, c.num 0xEC)] 0 (captureErr (plyBlk p) 0x105 0 d1)

/-- The save slot of level `l` written from the slot of the entry it takes over (R130). -/
def Core.copySlot (from_ l : Nat) (c : Core) : Core :=
  { c with save := tset (fun _ => 0) (tset (fun _ => 0) c.save (2 * l) (c.saved (2 * from_))) (2 * l + 1)
                    (c.saved (2 * from_ + 1)) }

/-- A fault entry (R107): code, reason, slot, the faulting bundle; the return address is the pair's `pc`. An entry
in progress is taken over: its slot is released, and the EVC finds it withdrawn. -/
def faultEntry (p code reason slot fpc : Nat) (d0 : Dev) : Dev :=
  let d := waited p d0
  let c0 := core d p
  let cause (c : Core) : Core :=
    (c.put 0xEC (BitVec.ofNat 64 (code + reason * 2 ^ 8 + slot * 2 ^ 16))).put 0xED (BitVec.ofNat 64 fpc)
  if c0.level = 15 then doubleFault p (onCore p cause (entryDrain p d))
  else stillCheck <| onCore p (fun c =>
    let c1 := if c.waiting.isSome then c.wake 2 else c
    let slot15 := match c1.entry with
      | some e => if e.confirmed then c1.saveSlot 15 true
          else let c := c1.copySlot e.level 15
               { c with save := tset (fun _ => 0) c.save 31 (c.saved 31 ||| 0x1000) }
      | none => c1.saveSlot 15 true
    let c2 := (cause slot15).put 0xE7 15
    ({ c2 with entry := none }.goto (c2.num 0xEB)).spend 13) (entryDrain p d)

/-- The core accepts a presented event (R128) or lets it take over the entry in progress (R130). -/
def Core.accept (src level vector : Nat) (c : Core) : Core :=
  let c1 := if c.waiting.isSome then c.wake 2 else c
  let c2 := match c1.entry with
    | none => c1.saveSlot level false
    | some e => c1.copySlot e.level level
  { c2.put 0xE7 (BitVec.ofNat 64 level) with entry := some ⟨src, level, vector, false⟩ }

end Sys2Proof.Machine
end

