-- ==== Sys2Proof/Machine/Evc.lean ====
section
/-! DEFINITION. The event controller (R187 to R212): sources, delivery, completion, waiting, the stillness
monitor and sleep. -/

namespace Sys2Proof.Machine

/-- The bit of source `s` in the status words `f` (R187, R212). -/
def srcBit (d : Dev) (f : Nat → Fld) (s : Nat) : Bool := bit (rd d (f (s / 32))) (s % 32)

/-- The bit of source `s` in the status words `f` set or cleared. -/
def setSrc (f : Nat → Fld) (s : Nat) (v : Bool) (d : Dev) : Dev :=
  wr d (f (s / 32)) (putBit (rd d (f (s / 32))) (s % 32) v)

/-- The core that source `s` is presented to. -/
def presentedTo (d : Dev) (s : Nat) : Option Nat :=
  (List.range 12).find? (fun n => tget (fun _ => none) d.evc.presented n == some s)

/-- Presented or ACTIVE (R190). -/
def heldSrc (d : Dev) (s : Nat) : Bool := (presentedTo d s).isSome || srcBit d evcActive s

/-- The presentation to core `n` set (R212). -/
def setPresented (n : Nat) (s : Option Nat) (d : Dev) : Dev :=
  let d1 := { d with evc := { d.evc with presented := tset (fun _ => none) d.evc.presented n s } }
  wr (wr d1 (evcStatePresented n) (b2n s.isSome)) (evcStateSrc n) (match s with | some x => x | none => 0)

/-- A source triggers on rising edges; the reserved encodings act as level (R19, R192). -/
def isEdge (d : Dev) (s : Nat) : Bool := rd d (evcCfgTrig s) == 1

/-- An edge or SWSET sets PEND, merging with one already set (R192, R196). -/
def pendSet (s : Nat) (d : Dev) : Dev :=
  if (presentedTo d s).isSome then
    if d.evc.again.contains s then inc d evcMergedCount
    else { d with evc := { d.evc with again := s :: d.evc.again } }
  else if srcBit d evcPend s then inc d evcMergedCount
  else setSrc evcPend s true d

/-- A presentation is withdrawn and its source returns to pending: an edge that came meanwhile merges with it
(R130, R192, R196). -/
def withdrawn (s : Nat) (d : Dev) : Dev :=
  if d.evc.again.contains s then
    inc { d with evc := { d.evc with again := d.evc.again.filter (fun x => x != s) } } evcMergedCount
  else d

/-- A level source is sampled: pending if RAW is 1 and it is not presented or ACTIVE (R192, R199). -/
def resample (s : Nat) (d : Dev) : Dev :=
  if !isEdge d s && srcBit d evcRaw s && !heldSrc d s then setSrc evcPend s true d else d

/-- CFG of source `s` written by `w`: FRAME_START of a pair holds no CORE_EN bit but its own (R189), and a level source
that is high becomes pending (R192). -/
def evcCfgWrite (s : Nat) (w : Nat → Dev) (v : Nat) : Dev :=
  resample s (w (if s < 12 then putBits v 27 16 (b2n (bit v (16 + s)) * 2 ^ s) else v))

/-- RAW takes a new value, and PEND follows: of a level source that is not held PEND falls with RAW, also where SWSET set
it (R191, R192; log entry 161). -/
def rawSet (s : Nat) (v : Bool) (d : Dev) : Dev :=
  let old := srcBit d evcRaw s
  let d1 := setSrc evcRaw s v d
  if isEdge d s then doIf (v && !old) (pendSet s) d1
  else if v then resample s d1
  else if heldSrc d s then d1 else setSrc evcPend s false d1

/-- The level hardware puts on source `s` (R188); `none` where the input is a pulse or there is none. -/
def inputLevel (d : Dev) (s : Nat) : Option Bool :=
  if s < 12 then none
  else if s < 24 then some (pstate d (s - 12) == 6)
  else if s < 32 then none
  else if s = 32 then some (evtLine .mod d)
  else if s < 51 then
    (([.gw, .evc, .spindle, .bobbin, .cht, .seq, .log, .strm 0, .strm 1, .ptp, .sup, .tag, .wear, .twin, .bist,
      .cont, .rel, .stor] : List Blk)[s - 33]?).map (fun b => evtLine b d)
  else if s < 63 then some (evtLine (.tdm (Fin.ofNat 12 (s - 51))) d)
  else if s = 63 then none
  else if s < 80 then some (evtLine (hueBlk (s - 64)) d)
  else if s < 92 then some (evtLine (plyBlk (s - 80)) d)
  else if s < 96 then none
  else if s < 224 then some (rd d (chChEvt (s - 96)) &&& rd d (chChEvtEn (s - 96)) != 0)
  else if s < 480 then some (bobLine d (s - 224))
  else none

/-- A source whose input is a one-cycle pulse (R188, R191). -/
def isPulse (s : Nat) : Bool := decide (s < 12) || (decide (480 ≤ s) && decide (s < 496))

/-- The always-on part is on watch: sleep is entered or requested, or the module enters standby or stays in it
(R209, R210, R427). -/
def aonOn (d : Dev) : Bool :=
  d.evc.asleep || flag d evcSleepPend || rd d bistPstatusPmode == 3 || rd d bistPstatusPmode == 4

/-- The always-on part watches source `s`: an AON_SEL entry names it (R209, R210). -/
def aonWatched (d : Dev) (s : Nat) : Bool :=
  aonOn d &&
    (List.range 32).any (fun i => flag d (evcAonSelValid i) && rd d (evcAonSelSrc i) == s)

/-- The always-on part sees the input of a watched source low, so that it may rise again (R210; log entry 164). -/
def aonLow (s : Nat) (d : Dev) : Dev :=
  { d with evc := { d.evc with aonHigh := d.evc.aonHigh.filter (fun x => x != s) } }

/-- EVC_RAW_CHANGE: the filtered input of a source shows its new value. RAW takes it while the PCLK part runs; the
always-on part sees a watched source fall (R191, R209, R210). -/
def doEvcRawChange (s : Nat) (d : Dev) : Dev :=
  match inputLevel d s with
  | some v =>
    let d1 := doIf (!v && aonWatched d s) (aonLow s) d
    if d.evc.asleep || v == srcBit d evcRaw s then d1 else rawSet s v d1
  | none => d

/-- A pulse sets the capture latch of its source while the PCLK part runs; the always-on part sees one of a watched source
(R191, R209, R210). -/
def evcPulse (s : Nat) (d : Dev) : Dev :=
  { d with evc := { d.evc with
      pulses := if d.evc.asleep then d.evc.pulses else d.evc.pulses ++ [s]
      aonPulse := if aonWatched d s then s :: d.evc.aonPulse else d.evc.aonPulse } }

/-- EVC_PULSE_CAPTURE: RAW reads 1 at one sample and the latch clears (R191); a latch set before sleep is lost in it
(R209). -/
def doEvcPulseCapture (s : Nat) (d : Dev) : Dev :=
  if isPulse s && d.evc.pulses.contains s && !d.evc.asleep then
    setSrc evcRaw s false (rawSet s true { d with evc := { d.evc with pulses := d.evc.pulses.filter (fun x => x != s) } })
  else d

/-- The level of a source (R187). -/
def srcLevel (d : Dev) (s : Nat) : Nat := rd d (evcCfgLevel s)

/-- The cores a source may go to: CORE_EN, of FRAME_START its own pair only, of STILL its core (R189, R193, R208). -/
def coreEn (d : Dev) (s n : Nat) : Bool :=
  if s = 24 then rd d evcStillCore == n
  else bit (rd d (evcCfgCoreEn s)) n && (decide (12 ≤ s) || s == n)

/-- The level of the event presented to core `n`, 0 for none. -/
def presentedLevel (d : Dev) (n : Nat) : Nat :=
  match (core d n).entry with
  | some e => e.level
  | none => 0

/-- Core `n` can take source `s` (R194). -/
def canTake (d : Dev) (n s : Nat) : Bool :=
  let l := srcLevel d s
  coreEn d s n && decide (rd d (evcThresh n) < l) && decide ((core d n).level < l) &&
    decide (presentedLevel d n < l) && canServe d n

/-- A presentation of group `g` is outstanding (R195, R198). -/
def outstanding (d : Dev) (g : Nat) : Bool :=
  (List.range 12).any (fun n => match tget (fun _ => none) d.evc.presented n with | some s => s / 32 == g | none => false)

/-- The sources that are pending, not presented and not ACTIVE, by level descending, then number (R195). -/
def pendingSrcs (d : Dev) : List Nat :=
  let one (g : Nat) : List Nat :=
    let w := rd d (evcPend g)
    if w = 0 then [] else ((List.range 32).filter (fun i => bit w i)).map (fun i => 32 * g + i)
  let all := ((List.range 32).flatMap one).filter (fun s => !heldSrc d s)
  (List.range 15).flatMap (fun k => all.filter (fun s => srcLevel d s == 15 - k))

/-- The core that receives `s` next: the first, in turn after its last receiver, that can take it (R195). -/
def nextCore (d : Dev) (s : Nat) (offered : List Nat) : Option Nat :=
  ((List.range 12).map (fun k => (rd d (evcCfgRr s) + k + 1) % 12)).find?
    (fun n => !offered.contains n && canTake d n s)

/-- A taken-over event that the EVC had confirmed is pending again; RR, DELIVERED and the hold-off of its group stay as the
confirmation left them (R130; log entry 160). -/
def unconfirm (n : Nat) (e : Entry) (d : Dev) : Dev :=
  if e.confirmed then
    let d1 := if srcBit d evcPend e.src then inc d evcMergedCount else d
    setSrc evcPend e.src true (setSrc evcActive e.src false (wr (wr d1 (evcActValid n e.level) 0) (evcActSrc n e.level) 0))
  else withdrawn e.src d

/-- Source `s` is presented to core `n`, which accepts it (R128, R130, R195, R197). -/
def present (s n : Nat) (d : Dev) : Dev :=
  let d1 := waited n (match (core d n).entry with
    | some e => unconfirm n e d
    | none => d)
  stillCheck (onCore n (Core.accept s (srcLevel d s) (rd d (evcVector s) * 64)) (entryDrain n (setPresented n (some s) d1)))

/-- The presentations of one PCLK edge (R195). -/
def presentAll : List Nat → List Nat → Dev → Dev
  | [], _, d => d
  | s :: r, offered, d =>
    let g := s / 32
    if rd d (evcHoldoff g) ≠ 0 && (decide (0 < rd d (evcHoldRemain g)) || outstanding d g) then presentAll r offered d
    else match nextCore d s offered with
      | some n => presentAll r (n :: offered) (present s n d)
      | none => presentAll r offered d

/-- EVC_PRESENT: the presentations of a PCLK edge, while the EVC is enabled and awake (R195, R209, R211). -/
def doEvcPresent (d : Dev) : Dev :=
  let d1 := stillCheck d
  if flag d1 (hdrActive .evc) && !d1.evc.asleep then presentAll (pendingSrcs d1) [] d1 else d1

/-- EVC_ACK_SAMPLE: the acknowledgement of core `n` is sampled and the delivery confirmed, or the source returns to
pending (R128, R196). -/
def doEvcAckSample (n : Nat) (d : Dev) : Dev :=
  match tget (fun _ => none) d.evc.presented n with
  | none => d
  | some s =>
    let d1 := setPresented n none d
    let back := withdrawn s d1
    let taken := { d1 with evc := { d1.evc with again := d1.evc.again.filter (fun x => x != s) } }
    match (core d n).entry with
    | some e =>
      if e.src = s ∧ !e.confirmed ∧ canServe d n then
        let d2 := setSrc evcActive s true (setSrc evcPend s (d.evc.again.contains s) taken)
        let d3 := wr (wr (wr d2 (evcActSrc n e.level) s) (evcActValid n e.level) 1) (evcCfgRr s) n
        let d4 := wr (inc d3 (evcDelivered n)) (evcHoldRemain (s / 32)) (rd d (evcHoldoff (s / 32)))
        onCore n (fun c => ({ c with entry := some { e with confirmed := true } }.goto e.vector).spend 20) d4
      else back
    | none => back

/-- EVC_HOLDOFF_EXPIRE: the interval of group `g` ends (R198); the count stands still in sleep (R209). -/
def doEvcHoldoffExpire (g : Nat) (d : Dev) : Dev := if d.evc.asleep then d else wr d (evcHoldRemain g) 0

/-- A write of HOLDOFF: 0 ends a count in progress (R198). -/
def evcHoldoffWrite (g v : Nat) (d : Dev) : Dev :=
  let d1 := wr d (evcHoldoff g) v
  if v % 0x10000 = 0 then wr d1 (evcHoldRemain g) 0 else d1

/-- The level at which source `s` is ACTIVE on core `n` (R190, R199). -/
def activeLevel (d : Dev) (n s : Nat) : Option Nat :=
  ((List.range 15).map (· + 1)).find? (fun k => flag d (evcActValid n k) && rd d (evcActSrc n k) == s)

/-- Source `s`, ACTIVE on core `n` at level `k`, is released; a level source is sampled again (R199). -/
def release (n k s : Nat) (d : Dev) : Dev :=
  resample s (setSrc evcActive s false (wr (wr d (evcActValid n k) 0) (evcActSrc n k) 0))

/-- An accepted completion of pair `n` (R199). -/
def evcCompleteWrite (n v : Nat) (d : Dev) : Dev :=
  let s := v % 1024
  match activeLevel d n s with
  | some k => release n k s d
  | none =>
    raise .evc 1 (wr (wr (inc d evcSpuriousComplete) evcLastSpuriousSrc s) evcLastSpuriousCore n)

/-- A write of SWSET: each bit sets PEND; sources from 576 up ignore it (R188, R192). -/
def evcSwsetWrite (g v : Nat) (d : Dev) : Dev :=
  forN 32 (fun i d => doIf (bit v i && decide (32 * g + i < 576)) (pendSet (32 * g + i)) d) d

/-- A write of PEND clears the bits written, but not of a presentation; a level source still asserted is pending
again (R192, R200). -/
def evcPendWrite (g v : Nat) (d : Dev) : Dev :=
  forN 32 (fun i d =>
    let s := 32 * g + i
    if !bit v i then d
    else if (presentedTo d s).isSome then
      { d with evc := { d.evc with again := d.evc.again.filter (fun x => x != s) } }
    else resample s (setSrc evcPend s false d)) d

/-- Every source ACTIVE on a reset pair is released, and a presentation to it returns to pending (R204, R375). -/
def evcDropPair (n : Nat) (d : Dev) : Dev :=
  let d1 := match tget (fun _ => none) d.evc.presented n with
    | some s => setPresented n none (withdrawn s d)
    | none => d
  forN 15 (fun i d => doIf (flag d (evcActValid n (i + 1))) (release n (i + 1) (rd d (evcActSrc n (i + 1)))) d) d1

/-! ### Waiting, stillness and sleep -/

/-- The lowest group of the mask with a pending source that core `n` may receive (R206). -/
def waitGroup (d : Dev) (n mask : Nat) : Option Nat :=
  (List.range 32).find? (fun g => bit mask g && rd d (evcPend g) != 0 &&
    (List.range 32).any (fun i => bit (rd d (evcPend g)) i && bit (rd d (evcCfgCoreEn (32 * g + i))) n))

/-- The wait of core `n` ends with WSTAT as given (R206, R207). -/
def endWait (n wstat : Nat) (d : Dev) : Dev := stillCheck (onCore n (Core.wake wstat) d)

/-- A wait whose condition holds ends; `spent` is what the time it lasted does (R206). -/
def wakeNow (spent : Dev → Dev) (n : Nat) (d : Dev) : Dev :=
  let c := core d n
  if c.waiting.isSome && !d.evc.asleep then
    match waitGroup d n (c.num 0x3E0) with
    | some g => endWait n (1 + g * 16) (spent d)
    | none => d
  else d

/-- WAIT_WAKE: a pending source of a group in WMASK ends the wait (R206). -/
def doWaitWake (n : Nat) (d : Dev) : Dev := wakeNow (waited n) n d

/-- WAIT_TIMEOUT: the timeout of a wait elapses, the cycles left of it with it; it does not in sleep, whose PCLK part is
stopped (R206, R209). -/
def doWaitTimeout (n : Nat) (d : Dev) : Dev :=
  match (core d n).waiting with
  | some t => if t = 0 || d.evc.asleep then d else endWait n 4 (countWait n (t - (core d n).passed) d)
  | none => d

/-- STILL_FIRE: the stillness count reaches its limit. The record carries the count of waiting cores of the group, and as
the group STILL_GROUP as it was written (R207; log entry 163). -/
def doStillFire (d0 : Dev) : Dev :=
  let d := stillCheck d0
  if rd d evcStillLimit = 0 || (stillGroup d).isEmpty || !allWait d || d.evc.fired || d.evc.asleep then d
  else
    let d1 := setSrc evcPend 24 true { d with evc := { d.evc with fired := true } }
    logEv 0x1001 0 1 [(2, rd d evcStillGroup), (4, (stillGroup d).length)] 0
      (raise .evc 0 (inc (wr d1 evcStillCount 0) evcStillFired))

/-- An AON_SEL entry is in use (R209). -/
def anyAonSel (d : Dev) : Bool := (List.range 32).any (fun i => flag d (evcAonSelValid i))

/-- The always-on part begins to watch, and knows which inputs are high (R209, R210, R427). -/
def aonBegin (d : Dev) : Dev :=
  if aonOn d then d else
  let high := (List.range 32).filterMap (fun i =>
    if flag d (evcAonSelValid i) && inputLevel d (rd d (evcAonSelSrc i)) == some true then some (rd d (evcAonSelSrc i)) else none)
  { d with evc := { d.evc with aonHigh := high, aonPulse := [] } }

/-- A write of SLEEP_CTRL: request, then cancel (R209). -/
def evcSleepWrite (v : Nat) (d : Dev) : Dev :=
  let d1 := if !bit v 0 then d
    else if anyAonSel d then wr (aonBegin d) evcSleepPend 1
    else freshNext (captureErr .evc 0x100 ((freshVal d).toNat % 2 ^ 16) d)
  if bit v 1 then wr d1 evcSleepPend 0 else d1

/-- The conditions of sleep (R209). -/
def maySleep (d : Dev) : Bool :=
  flag d evcSleepPend &&
  (List.range 12).all (fun n => pstate d n == 0 || (core d n).waiting.isSome) &&
  (List.range 12).all (fun n => tget (fun _ => none) d.evc.presented n == none) &&
  (pendingSrcs d).all (fun s => (List.range 12).all (fun n => !canTake d n s))

/-- SLEEP_ENTER: the EVC enters sleep at an edge at which its conditions hold; a capture latch that RAW has not shown is
lost (R209). -/
def doSleepEnter (d : Dev) : Dev :=
  if maySleep d && !d.evc.asleep then wr { d with evc := { d.evc with asleep := true, pulses := [] } } evcSleepPend 0 else d

/-- A watched source meets its trigger: one that triggers on edges has risen or been pulsed, any other is high
(R192, R210). A source without an input meets none. -/
def aonMet (d : Dev) (s : Nat) : Bool :=
  aonWatched d s &&
    (if isPulse s then d.evc.aonPulse.contains s
     else inputLevel d s == some true && !(isEdge d s && d.evc.aonHigh.contains s))

/-- AON_WAKE: a watched source meets its trigger: the sleeping EVC wakes, or a pending sleep is cancelled
(R209, R210). Level sources still asserted are seen at wake; the edges of the others are lost. -/
def evcWake (i : Nat) (d : Dev) : Dev :=
  if d.evc.asleep then
    let d1 := wr (wr { d with evc := { d.evc with asleep := false } } evcWakeSrcEntry i) evcWakeSrcValid 1
    let d2 := forN 480 (fun s d => if isEdge d s then (match inputLevel d s with
      | some v => setSrc evcRaw s v d
      | none => d) else doEvcRawChange s d) d1
    let s := rd d (evcAonSelSrc i)
    raise .evc 2 (if isEdge d2 s then pendSet s d2 else setSrc evcPend s true d2)
  else wr d evcSleepPend 0

end Sys2Proof.Machine
end

