-- ==== Sys2Proof/Machine/CoreUnits.lean ====
section
/-! DEFINITION. What each trigger port of a core starts (R138 to R186, R246): the CMACs, ALUs, MUL, DIV, FPU, LSUs
and EXT, and the caches and write buffer behind EXT (R172 to R181). -/

namespace Sys2Proof.Machine

/-! ### Local memory (R163 to R171) -/

/-- The bytes an LSU reads: local memory with this LSU's own stores of earlier bundles, not yet landed, over it
(R111, R170). -/
def lsuBytes (d : Dev) (p u a n : Nat) : List Byte :=
  let c := core d p
  let own := c.pipe.filter (fun l => decide (l.bundle < c.issued) && (match l.eff with | .store w _ _ => w == u | _ => false))
  (List.range n).map (fun i => own.foldl (fun b l => match l.eff with
    | .store _ s data => if s ≤ a + i then nth data (a + i - s) b else b
    | _ => b) (rdB d (localBase p + (a + i))))

/-- The size of an LSU operation by its port offset (R166). -/
def lsuSize (o : Nat) : Nat :=
  match o with
  | 0x10 | 0x11 | 0x20 => 1
  | 0x12 | 0x13 | 0x21 => 2
  | 0x14 | 0x15 | 0x22 => 4
  | 0x16 | 0x23 => 8
  | 0x17 | 0x24 => 16
  | _ => 32

/-- An LSU operation that stores (R166). -/
def lsuStores (o : Nat) : Bool := decide (0x20 ≤ o)

/-- The address an LSU operation takes from the value moved, and the update it makes to An (R167 to R169). -/
def lsuAddr (c : Core) (o : Nat) (v : Word) : Nat × Option (Nat × Nat) :=
  if o = 0x19 ∨ o = 0x26 then (bits v.toNat 18 0, none)
  else
    let n := bits v.toNat 4 0
    let r := addrWord (bits v.toNat 11 10) (c.num (0x80 + n)) (c.num (0xA0 + bits v.toNat 9 5)) (c.num (0xC0 + n % 16))
    (r.1, r.2.map (fun a => (n, a)))

/-- Why an LSU access is a DATA_ERROR (R170, R171); uncorrectable ECC is met by `ecc`. Of several reasons the first in
the order of R171 is given (DESIGN CHOICE, log entry 156). -/
def lsuError (c : Core) (o : Nat) (v : Word) (ecc : Bool) : Option Nat :=
  let a := (lsuAddr c o v).1
  if 0x80000 ≤ a then some 0x10
  else if a % lsuSize o ≠ 0 then some 0x11
  else if lsuStores o && decide (0x7FF00 ≤ a) then some 0x12
  else if ecc && !lsuStores o then some 0x13
  else none

/-- The 64-bit word of a lsuNarrow load (R166). -/
def lsuNarrow (o : Nat) (n : Nat) : Word :=
  match o with
  | 0x11 => (BitVec.ofNat 8 n).signExtend 64
  | 0x13 => (BitVec.ofNat 16 n).signExtend 64
  | 0x15 => (BitVec.ofNat 32 n).signExtend 64
  | _ => BitVec.ofNat 64 n

/-- Words of a byte list, eight bytes each. -/
def words8 (l : List Byte) (n : Nat) : List Word := (List.range n).map (fun i => BitVec.ofNat 64 (ofLe ((l.drop (8 * i)).take 8)))

/-- A word sent to each of the registers from `r` on. -/
def Core.sendRegs (r k : Nat) (l : List Word) (c : Core) : Core :=
  (List.range l.length).foldl (fun c i => c.send k (.port (r + i) (nth l i 0))) c

/-- A load of LSU `u` with its data (R100, R166, R169). -/
def lsuLoad (u o : Nat) (v : Word) (data : List Byte) (c : Core) : Core :=
  let base := 0x200 + 64 * u
  let dst := c.num base
  let g := decide (dst < 0x80)
  match o with
  | 0x19 => c.sendRegs (4 * bits v.toNat 23 19) 4 (words8 data 4)
  | 0x17 =>
    let c1 := c.send 4 (.port (base + 1) (nth (words8 data 2) 0 0))
    if g then c1.sendRegs (dst / 2 * 2) 4 (words8 data 2) else c1
  | 0x18 =>
    let c1 := c.send 4 (.port (base + 1) (nth (words8 data 4) 0 0))
    if g then c1.sendRegs (dst / 4 * 4) 4 (words8 data 4) else c1
  | _ =>
    let w := lsuNarrow o (ofLe data)
    let c1 := c.send 4 (.port (base + 1) w)
    if g then c1.send 4 (.port dst w) else c1

/-- The data a store of LSU `u` writes (R166, R169). -/
def lsuData (u o : Nat) (v : Word) (c : Core) : List Byte :=
  if o = 0x26 then (List.range 4).flatMap (fun i => leBytes 8 (c.num (4 * bits v.toNat 23 19 + i)))
  else if o < 0x24 then leBytes (lsuSize o) (c.num (0x202 + 64 * u))
  else (List.range (lsuSize o / 8)).flatMap (fun i => leBytes 8 (c.num (0x202 + 64 * u + i)))

/-- An LSU operation (R166 to R170): the A register it updates is visible to the next bundle. -/
def lsuOp (p u o : Nat) (v : Word) (d : Dev) : Dev :=
  let c := core d p
  let r := lsuAddr c o v
  let data := lsuBytes d p u r.1 (lsuSize o)
  let c1 := if lsuStores o then c.send 2 (.store u r.1 (lsuData u o v c)) else lsuLoad u o v data c
  setCore p (match r.2 with | some (n, a) => c1.send 1 (.port (0x80 + n) (BitVec.ofNat 64 a)) | none => c1) d

/-! ### Data cache and write buffer (R174 to R177) -/

/-- Address of the line that holds `a`. -/
def lineOf (a : Nat) : Nat := a / 64 * 64

/-- The data-cache key and line that hold address `a`. -/
def Core.dFind (c : Core) (a : Nat) : Option (Nat × DLine) :=
  ((List.range 4).map (fun w => 128 * w + a / 64 % 128)).findSome? (fun k =>
    match tget (fun _ => none) c.dcache k with
    | some l => if l.addr = lineOf a then some (k, l) else none
    | none => none)

/-- A data-cache place set. -/
def Core.dPut (k : Nat) (l : Option DLine) (c : Core) : Core := { c with dcache := tset (fun _ => none) c.dcache k l }

/-- A data-cache place takes a line from memory, or none: its ECC upsets are gone. -/
def Core.dRenew (k : Nat) (l : Option DLine) (c : Core) : Core := (c.dPut k l).heal (0x80000 + 64 * k) 64

/-- The place a miss takes: an empty way, else a way that the replacement history chooses, which is open (R174). -/
def Core.dVictim (c : Core) (a : Nat) (free : BitVec 64) : Nat :=
  let k (w : Nat) : Nat := 128 * w + a / 64 % 128
  match (List.range 4).find? (fun w => tget (fun _ => none) c.dcache (k w) == none) with
  | some w => k w
  | none => k (free.toNat % 4)

/-- A store or write-back entered in the write buffer; a write-through store merges into an entry of its line
(R175). -/
def Core.buffer (e : WbEnt) (c : Core) : Core :=
  let same (x : WbEnt) : Bool := !e.uncached && !x.uncached && lineOf x.addr == lineOf e.addr
  if c.wb.any same then { c with wb := c.wb.map (fun x => if same x then { x with data := x.data ++ e.data } else x) }
  else { c with wb := c.wb ++ [e] }

/-- Bytes with their addresses. -/
def cells (a : Nat) (l : List Byte) : List (Nat × Byte) := (List.range l.length).map (fun i => (a + i, nth l i 0))

/-- The line at place `k` written back through the write buffer, for the access that the bundle at `pc` triggered: its
errors are corrected as it is read, and one that cannot be fails the write (R178, R370). -/
def Core.writeBack (pc k : Nat) (l : DLine) (c : Core) : Core :=
  let ups := c.upsetsIn (0x80000 + 64 * k) 64
  { c with wb := c.wb ++ [⟨l.addr, cells l.addr l.data, false, pc, ups.contains true⟩]
           corrected := c.corrected + (ups.filter (fun u => !u)).length }

/-- The errors that a pair's write-backs corrected reach ECC_CORR_COUNT (R370). -/
def countWriteBacks (p : Nat) (d : Dev) : Dev :=
  eccCorrected p (core d p).corrected (onCore p (fun c => { c with corrected := 0 }) d)

/-- A line of memory with the buffered bytes over it, as a fill finds it after those entries have been sent. -/
def lineNow (d : Dev) (c : Core) (a : Nat) : List Byte :=
  (List.range 64).map (fun i => c.wb.foldl (fun b e => e.data.foldl (fun b x => if x.1 = a + i then x.2 else b) b) (rdB d (a + i)))

/-- The line that holds `a` is fetched into the cache for the access of the bundle at `pc`; a dirty line it replaces is
written back (R174). -/
def fillLine (p pc a : Nat) (d : Dev) : Dev :=
  let c := core d p
  let k := c.dVictim a (freshVal d)
  let c1 := match tget (fun _ => none) c.dcache k with
    | some l => if l.dirty then c.writeBack pc k l else c
    | none => c
  countWriteBacks p (freshNext (setCore p (c1.dRenew k (some ⟨lineOf a, lineNow d c (lineOf a), false⟩)) d))

/-- Bytes put into a line from offset `o` on. -/
def splice (l : List Byte) (o : Nat) (data : List Byte) : List Byte := l.take o ++ data ++ l.drop (o + data.length)

/-- Bytes stored into the cached line that holds `a`, if there is one. -/
def Core.dStore (a : Nat) (data : List Byte) (dirty : Bool) (c : Core) : Core :=
  match c.dFind a with
  | some (k, l) => (c.dPut k (some { l with data := splice l.data (a % 64) data, dirty := l.dirty || dirty })).heal
      (0x80000 + 64 * k + a % 64) data.length
  | none => c

/-- An EXT store under the attribute of its region (R172 to R175); one that is not aligned reaches the fabric, which
refuses it (R50, R178). A write-back store that misses fetches its line, and its response is outstanding from then on
(R174, R178). -/
def extStore (p a n : Nat) (d : Dev) : Dev :=
  let c := core d p
  let data := leBytes n (c.num 0x402)
  let buffered (unc : Bool) (c : Core) : Core := c.buffer ⟨a, cells a data, unc, c.pc, false⟩
  match if a % n = 0 then c.attr a else 0 with
  | 2 =>
    if (c.dFind a).isSome then onCore p (Core.dStore a data true) d
    else onCore p (fun c => { c.dStore a data true with ext := c.ext ++ [⟨0xFFF, c.pc, .fill (lineOf a)⟩] }) (fillLine p c.pc a d)
  | 1 => onCore p (fun c => buffered false (c.dStore a data false)) d
  | _ => onCore p (buffered true) d

/-- Whether a store to `a` needs a write-buffer entry that is not there (R175). -/
def storeStalls (d : Dev) (c : Core) (a n : Nat) : Bool :=
  decide (8 ≤ c.wb.length) &&
    (match if a % n = 0 then c.attr a else 0 with
     | 2 => (c.dFind a).isNone && (match tget (fun _ => none) c.dcache (c.dVictim a (freshVal d)) with
              | some l => l.dirty
              | none => false)
     | 1 => !c.wb.any (fun x => !x.uncached && lineOf x.addr == lineOf a)
     | _ => true)

/-- A line operation of the bundle at `pc` on the data cache: 0 clean, 1 invalidate, 2 clean and invalidate (R172). -/
def Core.lineOp (pc kind k : Nat) (l : DLine) (c : Core) : Core :=
  let c1 := if kind ≠ 1 && l.dirty then c.writeBack pc k l else c
  if kind = 0 then c1.dPut k (some { l with dirty := false }) else c1.dRenew k none

/-- A line operation on the line that holds `a`, if it is cached (R172). -/
def Core.lineAt (kind a : Nat) (c : Core) : Core :=
  match c.dFind a with
  | some (k, l) => c.lineOp c.pc kind k l
  | none => c

/-- A line operation would need a write-buffer entry that is not there. -/
def lineStalls (c : Core) (kind a : Nat) : Bool :=
  decide (8 ≤ c.wb.length) && kind != 1 && (match c.dFind a with | some (_, l) => l.dirty | none => false)

/-- An EXT operation leaves the list. -/
def Core.extDrop (o : ExtOp) (c : Core) : Core := { c with ext := c.ext.erase o }

/-- An EXT result lands in DST and RES, and its scoreboard bit clears (R115, R172). -/
def Core.extLand (o : ExtOp) (v : Word) (c : Core) : Core :=
  ((c.extDrop o).put 0x401 v).landDst o.dst v

/-- The occupancy a status word shows: nothing to a hue that may not use the bobbin, nor of a context that cannot be read
(R247). -/
def shownOcc (d : Dev) (code q : Nat) : Nat := if code = 4 || ctxLost d q then 0 else occ (rdCtx d q)

/-- The manager is reset, or its quiesce has timed out: the operations that wait land with DISABLED, or with NOT_OWNER
where their hue may learn nothing (R54, R247, R279). -/
def bobAbandon (d : Dev) : Dev :=
  forN 12 (fun p d =>
    forEach (core d p).ext (fun o d => match o.work with
      | .bobbin k q _ _ =>
        let code := bobCode false d (rd d (plyCoreHue p)) true (if k = .enq then .deq else k) q
        onCore p (Core.extLand o (bobStatus code (shownOcc d code q))) d
      | _ => d) d) d

/-! ### Instruction cache (R180, R181) -/

/-- The bundle that the instruction cache holds for address `a`. -/
def Core.iFind (c : Core) (a : Nat) : Option Nat :=
  (List.range 4).findSome? (fun w => match tget (fun _ => none) c.icache (512 * w + a / 64 % 512) with
    | some (t, b) => if t = lineOf a then some b else none
    | none => none)

/-- An instruction-cache place set. -/
def Core.iPut (w a : Nat) (l : Option (Nat × Nat)) (c : Core) : Core :=
  let k := 512 * w + a / 64 % 512
  { c with icache := tset (fun _ => none) c.icache k l }.heal (0x100000 + 64 * k) 64

/-- The ECC upsets that a fetch of the bundle at `a` from the instruction cache meets (R370). -/
def Core.iUpsets (c : Core) (a : Nat) : List Bool :=
  (List.range 4).flatMap (fun w =>
    let k := 512 * w + a / 64 % 512
    match tget (fun _ => none) c.icache k with
    | some (t, _) => if t = lineOf a then c.upsetsIn (0x100000 + 64 * k) 64 else []
    | none => [])

/-- ICACHE_LOCK.LOCK (R173). -/
def Core.locked (c : Core) (w : Nat) : Bool := bit (c.num 0xF9) w

/-- A fetched line kept in an unlocked way: an empty one, else one the replacement history chooses, which is open;
with all ways locked it is not kept (R180, R181). -/
def Core.iFill (a b : Nat) (free : BitVec 64) (c : Core) : Core :=
  let ways := (List.range 4).filter (fun w => !c.locked w)
  let empty := ways.find? (fun w => tget (fun _ => none) c.icache (512 * w + a / 64 % 512) == none)
  match empty with
  | some w => c.iPut w a (some (lineOf a, b))
  | none => if ways.isEmpty then c else c.iPut (nth ways (free.toNat % ways.length) 0) a (some (lineOf a, b))

/-- The lines of a range dropped from the instruction cache, in any way: the cache, and how many (R172, R181). -/
def Core.iDrop (c : Core) (f : Nat → Bool) : Core × Nat :=
  let keep := c.icache.filter (fun e => match e.2 with | some (t, _) => !f t | none => true)
  ({ c with icache := keep }, c.icache.length - keep.length)

/-- IINV_ALL: every unlocked way is invalidated (R172, R181). -/
def Core.iDropAll (c : Core) : Core := { c with icache := c.icache.filter (fun e => c.locked (e.1 / 512)) }

/-! ### Triggers -/

/-- A unit whose DST and ports start at `base` latches an operation for EXT (R172). -/
def Core.extPush (w : ExtWork) (c : Core) : Core := { c with ext := c.ext ++ [⟨c.num 0x400, c.pc, w⟩] }

/-- The BD ports as bytes (R246). -/
def Core.bdBytes (c : Core) : List Byte := (List.range 8).flatMap (fun i => leBytes 8 (c.num (0x440 + i)))

/-- An EXT trigger by its port offset (R172, R176, R246). DCLEAN_ALL and DCLEANINV_ALL are range operations over the whole
cache, and IINV_ALL is none (DESIGN CHOICE, log entry 157). -/
def extOp (p o : Nat) (v : Word) (d : Dev) : Dev :=
  let a := v.toNat % 2 ^ 40
  let c := core d p
  let q := v.toNat % 2 ^ 15
  let put (f : Core → Core) : Dev := onCore p f d
  match o with
  | 0x10 => put (Core.extPush (.load a 4 false (c.attr a)))
  | 0x11 => put (Core.extPush (.load a 4 true (c.attr a)))
  | 0x12 => put (Core.extPush (.load a 8 false (c.attr a)))
  | 0x13 => extStore p a 4 d
  | 0x14 => extStore p a 8 d
  | 0x18 => countWriteBacks p (put (Core.lineAt 0 a))
  | 0x19 => countWriteBacks p (put (Core.lineAt 1 a))
  | 0x1A => countWriteBacks p (put (Core.lineAt 2 a))
  | 0x1B => put (Core.extPush (.range 0 a (c.num 0x403) 0))
  | 0x1C => put (Core.extPush (.range 1 a (c.num 0x403) 0))
  | 0x1D => put (Core.extPush (.range 2 a (c.num 0x403) 0))
  | 0x1E => put (Core.extPush (.range 0 0 (2 ^ 40) 0))
  | 0x1F => put (Core.extPush (.range 2 0 (2 ^ 40) 0))
  | 0x20 => put (fun c => (c.iDrop (fun t => t == lineOf a)).1)
  | 0x21 => put (Core.extPush (.irange a (c.num 0x403)))
  | 0x22 => put Core.iDropAll
  | 0x23 => put (Core.extPush (.ifill a (bits (c.num 0xF9) 5 4)))
  | 0x28 => put (fun c => { c with fence := true })
  | 0x50 => put (Core.extPush (.bobbin .enq q c.bdBytes (bobRunning d)))
  | 0x51 => put (Core.extPush (.bobbin .deq q [] (bobRunning d)))
  | 0x52 => put (Core.extPush (.bobbin .peek q [] (bobRunning d)))
  | 0x53 => put (Core.extPush (.bobbin .occ q [] (bobRunning d)))
  | _ => d

/-- A CMAC trigger by its port offset (R138 to R143). -/
def cmacTrig (u o : Nat) (v : Word) (sat : Bool) (c : Core) : Core :=
  let base := 0x100 + 64 * u
  let k := o % 4
  let re := c.accGet (accKey u k)
  let im := c.accGet (accKey u k + 1)
  if o / 4 = 12 then
    let r := extrOp (c.port (base + 4)) sat re im
    (c.result base 2 r.1).send 2 (.stat u r.2)
  else if o / 4 = 13 then c.result base 2 (rawxOp (v.toNat % 4) re im)
  else
    let r := cmacOp o (c.port (base + 2)) (c.port (base + 3)) v
    c.send 3 (.acc u k r.1 (sat && r.2))

/-- An ALU trigger (R144 to R146). Where the DST of an ADDX or SUBX is P0 itself, the carry is sent after the result, and
P0 keeps it (DESIGN CHOICE, log entry 155). -/
def aluTrig (u o : Nat) (v : Word) (sat : Bool) (c : Core) : Core :=
  let base := 0x280 + 32 * u
  let r := aluOp o (c.port (base + 2)) v (bit (c.num 0xD0) 0) sat
  let c1 := c.result base 1 r.1
  match r.2 with
  | some b => c1.send 1 (.port 0xD0 (BitVec.ofNat 64 (b2n b)))
  | none => c1

/-- A MUL trigger (R147). -/
def mulTrig (o : Nat) (v : Word) (sat : Bool) (c : Core) : Core := c.result 0x300 1 (mulOp o (c.port 0x302) v sat)

/-- A DIV trigger (R148 to R152). -/
def divTrig (o : Nat) (v : Word) (sat : Bool) (c : Core) : Core :=
  { c with div := some ⟨c.num 0x380, divOp o (c.port 0x382) v sat, 0, c.num 0xEE + divCycles o (c.port 0x382) v c.ct, c.bound (c.num 0x380)⟩ }

/-- An FPU trigger (R153 to R158). -/
def fpuTrig (o : Nat) (v : Word) (c : Core) : Core :=
  let a := c.port 0x342
  let dbl := decide (0x18 ≤ o) && decide (o < 0x28)
  let k := if dbl then o - 16 else o
  if k = 0x14 ∨ k = 0x15 then
    let r := fpuIter (k == 0x15) dbl c.rm a v
    { c with fpi := some ⟨c.num 0x340, r.1, r.2.1, c.num 0xEE + r.2.2, c.bound (c.num 0x340)⟩ }
  else
    let r := fpuOp o c.rm a v (c.port 0x343)
    let c1 := c.result 0x340 (fpuDelay o) r.1
    if r.2 = 0 then c1 else c1.send (fpuDelay o) (.flags r.2)

/-- LCOUNT of level `k`: the loop is armed; a count of 0 leaves REMAIN (R183). -/
def Core.armLoop (k : Nat) (v : Word) (c : Core) : Core :=
  let n := v.toNat % 2 ^ 32
  let w := if n = 0 then bits (c.num (0x3CC + 8 * k)) 31 0 + 2 * 2 ^ 32 else n + 2 ^ 32
  { c.put (0x3CC + 8 * k) (BitVec.ofNat 64 (w + c.level * 2 ^ 36)) with
    lstate := tset (fun _ => none) c.lstate k none
    armed := tset (fun _ => 0) c.armed k (c.issued + 1) }

/-- LCLR of level `k`: idle (R182). -/
def Core.clearLoop (k : Nat) (c : Core) : Core :=
  let s := c.num (0x3CC + 8 * k)
  { c.put (0x3CC + 8 * k) (BitVec.ofNat 64 (putBits s 33 32 0)) with
    lstate := tset (fun _ => none) c.lstate k none
    armed := tset (fun _ => 0) c.armed k 0 }

/-- A trigger port takes its value (R95, R138 to R176, R246): every unit but the CU. -/
def trigUnit (p id : Nat) (v : Word) (sat : Bool) (d : Dev) : Dev :=
  if id < 0x200 then onCore p (cmacTrig ((id - 0x100) / 64) ((id - 0x100) % 64) v sat) d
  else if id < 0x280 then lsuOp p ((id - 0x200) / 64) ((id - 0x200) % 64) v d
  else if id < 0x300 then onCore p (aluTrig ((id - 0x280) / 32) ((id - 0x280) % 32) v sat) d
  else if id < 0x340 then onCore p (mulTrig (id - 0x300) v sat) d
  else if id < 0x380 then onCore p (fpuTrig (id - 0x340) v) d
  else if id < 0x3C0 then onCore p (divTrig (id - 0x380) v sat) d
  else extOp p (id - 0x400) v d

end Sys2Proof.Machine
end

