-- ==== Sys2Proof/Machine/CoreIssue.lean ====
section
/-! DEFINITION. How a bundle issues (R95 to R133, R182 to R186): legality, stalls, moves and triggers, branches and
their prediction, loops, RTI and WAIT. A command that names one operation is the issue of a bundle whose only move,
in slot 0, writes that trigger port. -/

namespace Sys2Proof.Machine

/-- A move whose guard holds, with the value its source gave (R96). -/
structure Mv where
  n : Nat
  dst : Nat
  v : Word
  sat : Bool
  /-- source port, if the source is a port -/
  src : Option Nat
  guarded : Bool
  deriving DecidableEq, Repr

/-- A bundle of one move, as the operation commands issue it. -/
def oneMove (port : Nat) (v : Word) (sat : Bool) : List Mv := [⟨0, port, v, sat, none, false⟩]

/-- A fault whose REASON or SLOT the manual does not give takes a free value there (R18, R107). -/
def faultOpen (p code : Nat) (reason slot : Option Nat) (fpc : Nat) (d : Dev) : Dev :=
  let v := (freshVal d).toNat
  faultEntry p code (reason.getD (v % 256)) (slot.getD (v / 256 % 16)) fpc (freshNext d)

/-- The pair fetches bundles: running, or in its rejoin handler after the reset and injection (R371, R376, R378). -/
def running (d : Dev) (p : Nat) : Bool :=
  pstate d p == 1 || ((pstate d p == 3 || pstate d p == 4) && (ply d p).resetDone)

/-- Nothing holds the next bundle: no wait, no FENCE, no entry that is not confirmed (R128, R176, R206). -/
def unheld (c : Core) : Bool :=
  c.waiting.isNone && !c.fence && (match c.entry with | some e => e.confirmed | none => true)

/-- A loop level: STATE, REMAIN, OWNER, LSTART, LEND (R182). -/
def Core.loopSt (c : Core) (k : Nat) : Nat := bits (c.num (0x3CC + 8 * k)) 33 32
/-- REMAIN of loop level `k`. -/
def Core.remain (c : Core) (k : Nat) : Nat := bits (c.num (0x3CC + 8 * k)) 31 0
/-- Loop level `k` is evaluated: LEVEL equals its OWNER (R183). -/
def Core.owned (c : Core) (k : Nat) : Bool := bits (c.num (0x3CC + 8 * k)) 39 36 == c.level
/-- LSTART of loop level `k`. -/
def Core.lstart (c : Core) (k : Nat) : Nat := c.num (0x3C8 + 8 * k)
/-- LEND of loop level `k`. -/
def Core.lend (c : Core) (k : Nat) : Nat := c.num (0x3C9 + 8 * k)

/-- REMAIN and STATE of loop level `k` set. -/
def Core.setLoop (k remain st : Nat) (c : Core) : Core :=
  c.put (0x3CC + 8 * k) (BitVec.ofNat 64 (putBits (putBits (c.num (0x3CC + 8 * k)) 31 0 remain) 33 32 st))

/-- The first loop-back or skip of a level armed too late costs 7 cycles, counted as a misprediction (R184). -/
def Core.loopCost (k : Nat) (c : Core) : Core :=
  let a := tget (fun _ => 0) c.armed k
  let c1 := { c with armed := tset (fun _ => 0) c.armed k 0 }
  if 0 < a ∧ c.issued + 1 < a + 8 then (c1.spend 7).count 0xF3 1 else c1

/-- The highest skip level whose LSTART is the next bundle issues LEND + 64 in its place (R183); another that shares the
LSTART stays in skip (DESIGN CHOICE, log entry 154). -/
def Core.skipLoop (c : Core) : Core :=
  match [2, 1, 0].find? (fun k => decide (c.loopSt k = 2) && c.owned k && decide (c.lstart k = c.pc)) with
  | some k => (c.setLoop k (c.remain k) 0).loopCost k |>.goto (c.lend k + 64)
  | none => c

/-- The skips before the next bundle: each makes its level idle, so three are all there can be (R183). -/
def Core.skipLoops (c : Core) : Core := c.skipLoop.skipLoop.skipLoop

/-- The issue of the bundle at LEND of active levels, highest first: back to LSTART, or through (R183, R185). -/
def Core.loopBack (pc : Nat) : List Nat → Core → Option Nat × Core
  | [], c => (none, c)
  | k :: r, c =>
    if c.loopSt k = 1 ∧ c.owned k ∧ c.lend k = pc then
      if 1 < c.remain k then (some (c.lstart k), (c.setLoop k (c.remain k - 1) 1).loopCost k)
      else if c.remain k = 1 then
        Core.loopBack pc r { c.setLoop k 0 0 with armed := tset (fun _ => 0) c.armed k 0 }
      else Core.loopBack pc r c
    else Core.loopBack pc r c

/-! ### Stalls -/

/-- The registers that the DST of a triggered operation names (R100, R115, R166): none for the CU, whose range has no
DST port, and none for STQA, which uses no DST (R169); an operation without a result still has its unit's DST (DEDUCED, log entry 111). -/
def trigDsts (c : Core) (m : Mv) : List Nat :=
  let base := unitBase m.dst
  let dst := c.num base
  if base = 0x3C0 then []
  else if decide (0x200 ≤ m.dst) && decide (m.dst < 0x280) then
    match m.dst - base with
    | 0x19 => (List.range 4).map (fun i => 4 * bits m.v.toNat 23 19 + i)
    | 0x26 => []
    | 0x17 => (List.range 2).map (fun i => dst / 2 * 2 + i)
    | 0x18 => (List.range 4).map (fun i => dst / 4 * 4 + i)
    | _ => [dst]
  else [dst]

/-- The registers an operation reads or writes besides its DST: the address, step and limit of an LSU's word and the
quad of STQA (R166 to R169), P0 with carry (R144), the link register (R117), and the predicates that RTI restores
(R132). -/
def unitRegs (m : Mv) : List Nat :=
  let o := (m.dst - 0x200) % 64
  let w := m.v.toNat
  let mode := bits w 11 10
  if m.dst < 0x200 then []
  else if m.dst < 0x280 then
    if o = 0x26 then (List.range 4).map (fun i => 4 * bits w 23 19 + i)
    else if o = 0x19 then []
    else [0x80 + bits w 4 0] ++ (if mode = 0 then [] else [0xA0 + bits w 9 5]) ++
      (if mode = 2 then [0xC0 + bits w 4 0 % 16] else [])
  else if m.dst < 0x300 then (if 0x0C ≤ (m.dst - 0x280) % 32 ∧ (m.dst - 0x280) % 32 ≤ 0x0F then [0xD0] else [])
  else if m.dst = 0x3C2 ∨ m.dst = 0x3C3 ∨ m.dst = 0x3C4 then [0x9F]
  else if m.dst = 0x3C5 then (List.range 8).map (fun i => 0xD0 + i)
  else []

/-- The last trigger of each unit: the only one that starts its operation (R137). -/
def winners (ms : List Mv) : List Mv :=
  let t := ms.filter (fun m => portKind m.dst == .trigger)
  t.filter (fun m => !t.any (fun x => unitBase x.dst == unitBase m.dst && decide (m.n < x.n)))

/-- The operand moves of a bundle performed (R96). -/
def operandMoves (ms : List Mv) (c : Core) : Core :=
  ms.foldl (fun c m => if portKind m.dst = .operand then c.put m.dst (m.v &&& BitVec.ofNat 64 (portMask m.dst)) else c) c

/-- A bundle stalls before issue: a register it reads, writes or names in a DST waits for a result, a busy divider or
FPU iteration, or a full write buffer (R115, R152, R153, R175). -/
def stallsSb (d : Dev) (c : Core) (ms : List Mv) : Bool :=
  let ready := operandMoves ms c
  ms.any (fun m => match m.src with | some s => c.busy s | none => false) ||
  ms.any (fun m => c.busy m.dst) ||
  (winners ms).any (fun m => (trigDsts ready m).any c.busy) ||
  (winners ms).any (fun m => (unitRegs m).any c.busy) ||
  (winners ms).any (fun m => decide (0x380 ≤ m.dst) && decide (m.dst < 0x3C0) && c.div.isSome) ||
  (winners ms).any (fun m => (m.dst == 0x354 || m.dst == 0x355 || m.dst == 0x364 || m.dst == 0x365) && c.fpi.isSome) ||
  (winners ms).any (fun m => (m.dst == 0x413 || m.dst == 0x414) && storeStalls d c (m.v.toNat % 2 ^ 40) (if m.dst = 0x413 then 4 else 8)) ||
  (winners ms).any (fun m => (m.dst == 0x418 || m.dst == 0x41A) && lineStalls c (m.dst - 0x418) (m.v.toNat % 2 ^ 40))

/-- The LSU trigger in the lowest slot that breaks R170: its reason and slot (R171; DESIGN CHOICE, log entry 156). -/
def lsuFault (c : Core) (ms : List Mv) : Option (Nat × Nat) :=
  ((winners ms).filter (fun m => decide (0x200 ≤ m.dst) && decide (m.dst < 0x280))).findSome?
    (fun m => (lsuError c ((m.dst - 0x200) % 64) m.v
        ((c.upsetsIn (lsuAddr c ((m.dst - 0x200) % 64) m.v).1 (lsuSize ((m.dst - 0x200) % 64))).contains true)).map
      (fun r => (r, m.n)))

/-- The single-bit ECC errors that the loads of a bundle correct (R164). -/
def lsuCorrects (c : Core) (ms : List Mv) : Nat :=
  (((winners ms).filter (fun m => decide (0x200 ≤ m.dst) && decide (m.dst < 0x280) && !lsuStores ((m.dst - 0x200) % 64))).flatMap
    (fun m => c.upsetsIn (lsuAddr c ((m.dst - 0x200) % 64) m.v).1 (lsuSize ((m.dst - 0x200) % 64)))).length

/-- Extra cycles of the most loaded bank (R109). A scoreboarded result counts in the cycle of the bundle that issues next
after its landing (DESIGN CHOICE, log entry 131). -/
def bankStall (reads : List Nat) (c : Core) : Nat :=
  let n := c.issued + 1
  let writes := c.landed ++ c.pipe.filterMap (fun l => if l.due = n then (match l.eff with
    | .port id _ => if id < 0x80 then some id else none
    | _ => none) else none)
  let r := reads.eraseDups.filter (fun id => decide (id < 0x80))
  let load (b : Nat) : Nat :=
    max ((((r.filter (fun id => id / 32 == b)).length) + 3) / 4) ((((writes.filter (fun id => id / 32 == b)).length) + 3) / 4)
  max (max (load 0) (load 1)) (max (load 2) (load 3)) - 1

/-- The banks of local memory that a bundle's LSU operations address (R163). -/
def lsuBanks (c : Core) (ms : List Mv) : List Nat :=
  ((winners ms).filter (fun m => decide (0x200 ≤ m.dst) && decide (m.dst < 0x280))).map
    (fun m => bits (lsuAddr c ((m.dst - 0x200) % 64) m.v).1 8 5)

/-- Both LSUs address one bank of local memory (R165). -/
def lsuBankStall (c : Core) (ms : List Mv) : Nat :=
  match lsuBanks c ms with
  | [a, b] => b2n (a == b)
  | _ => 0

/-- A Spindle request for bank `b` of pair `p`'s local memory is outstanding. -/
def spindleAt (d : Dev) (p b : Nat) : Bool :=
  d.sp.chans.any (fun x => (x.2.reads ++ x.2.writes).any (fun r =>
    decide (localBase p ≤ r.addr) && decide (r.addr < localBase p + 0x80000) &&
      (List.range ((r.addr % 32 + r.len + 31) / 32)).any (fun i => bits (r.addr + 32 * i) 8 5 == b)))

/-- A bundle's LSU operation meets a bank for which a Spindle request is outstanding. -/
def spindleMeets (d : Dev) (p : Nat) (ms : List Mv) : Bool := (lsuBanks (core d p) ms).any (spindleAt d p)

/-- The cycles an LSU waits for a Spindle request that has waited 7 cycles for its bank and is served in the 8th (R165).
How long an outstanding request has waited is open, so whether one stalls the bundle is a free value (log entry 132). -/
def spindleStall (free : Word) (d : Dev) (p : Nat) (ms : List Mv) : Nat :=
  if spindleMeets d p ms then free.toNat % 2 else 0

/-! ### Branches -/

/-- The direction counter of a branch at `pc` (R119). -/
def Core.ctrIdx (c : Core) : Nat := bits c.pc 17 6 ^^^ c.num 0xFA

/-- An outcome shifted into the global history (R120). -/
def Core.shiftHist (taken : Bool) (c : Core) : Core :=
  c.put 0xFA (BitVec.ofNat 64 ((c.num 0xFA * 2 + b2n taken) % 4096))

/-- A branch resolves: cost, counters, history and return stack (R119 to R122). `kind`: 0 by counter when guarded,
1 a register source, 2 RET. A misprediction shifts its outcome into the history whatever the branch (R120); a branch
predicted rightly does where the counter predicted it, and else leaves the history; the pop of a RET that is taken stands
although the return-stack pointer is restored (DESIGN CHOICE, log entry 17). -/
def Core.branch (kind : Nat) (guarded : Bool) (target : Nat) (c : Core) : Core :=
  let cost (c : Core) : Core := (c.spend 7).count 0xF3 1
  let miss (c : Core) : Core := (cost c).shiftHist true
  let c1 :=
    if c.sp then cost c
    else match kind with
      | 0 =>
        if guarded then
          let i := c.ctrIdx
          let n := tget (fun _ => 0) c.predictor i
          let c2 := { c with predictor := tset (fun _ => 0) c.predictor i (min (n + 1) 3) }
          if 2 ≤ n then (c2.spend 1).shiftHist true else miss c2
        else c.spend 1
      | 1 => miss c
      | _ =>
        let ok := match c.returns with | a :: _ => a == target | [] => decide (target = 0)
        let c2 := { c with returns := c.returns.tail }
        if ok then c2.spend 1 else miss c2
  ((c1.count 0xF4 1).goto target).loopStates

/-- A guarded branch whose guard is false: a RET (`ret`), predicted to the return-stack top, is mispredicted, and its
pop is undone (R119, R120); another is predicted by its counter, which is updated (R119, R122). -/
def Core.notTaken (ret : Bool) (c : Core) : Core :=
  if c.sp then c
  else if ret then ((c.spend 7).count 0xF3 1).shiftHist false
  else
    let i := c.ctrIdx
    let n := tget (fun _ => 0) c.predictor i
    let c2 := { c with predictor := tset (fun _ => 0) c.predictor i (n - 1) }.shiftHist false
    if 2 ≤ n then (c2.spend 7).count 0xF3 1 else c2

/-- A return address pushed on the return stack of 16 entries (R121, R122). -/
def Core.push (a : Nat) (c : Core) : Core := if c.sp then c else { c with returns := (a :: c.returns).take 16 }

/-- RTI at a level above 0: predicates, level and fetch restored from the slot (R132). -/
def Core.rti (c : Core) : Core :=
  let l := c.level
  let stat := (c.saved (2 * l + 1)).toNat
  let c1 := (List.range 8).foldl (fun c i => c.send 1 (.port (0xD0 + i) (BitVec.ofNat 64 (stat / 2 ^ i % 2)))) c
  let c2 := c1.put 0xE7 (BitVec.ofNat 64 (bits stat 11 8))
  (((c2.spend 7).count 0xF4 1).goto (c.saved (2 * l)).toNat).loopStates

/-- Where the CU sends fetch after a bundle at `pc`, the bundle's CU control move given (R117, R132, R183, R205). -/
def cuEffect (pc : Nat) (ctl : Option Mv) (c : Core) : Core :=
  let next := (pc + 64) % 2 ^ 40
  let rel (v : Word) : Nat := ofSigned 40 ((pc : Int) + 64 * v.toInt)
  let fall (c : Core) : Core :=
    match Core.loopBack pc [2, 1, 0] c with
    | (some a, c1) => c1.goto a
    | (none, c1) => { c1 with pc := next, queue := c1.queue.filter (fun e => e.1 != pc) }
  match ctl with
  | none => fall c
  | some m =>
    let kind := match m.src with | some s => if s = 0xD8 ∨ s = 0xD9 then 0 else 1 | none => 0
    let abs := m.v.toNat % 2 ^ 40 / 64 * 64
    match m.dst with
    | 0x3C0 => c.branch kind m.guarded abs
    | 0x3C1 => c.branch 0 m.guarded (rel m.v)
    | 0x3C2 => (c.branch kind m.guarded abs).push next
    | 0x3C3 => (c.branch 0 m.guarded (rel m.v)).push next
    | 0x3C4 => c.branch 2 m.guarded (c.num 0x9F)
    | 0x3C5 => c.rti
    | 0x3E1 => { fall c with waiting := some (m.v.toNat % 2 ^ 32), passed := 0 }
    | id =>
      let k := (id - 0x3C8) / 8
      if (id - 0x3C8) % 8 = 2 then (fall c).armLoop k m.v else (fall c).clearLoop k

/-! ### Moves -/

/-- A move to a register or CSR on its way (R96, R111, R123, R126). -/
def regMove (id : Nat) (v : Word) (c : Core) : Core :=
  if id = 0xE0 ∨ (0xF6 ≤ id ∧ id ≤ 0xF9) then
    { c with sync := c.sync ++ [⟨c.issued + 9, id, c.num 0xF5, v⟩] }
  else if id = 0xE1 then c.send 1 (.fstat v)
  else if decide (0x100 ≤ id) && decide (id < 0x200) then c.send 1 (.statClear ((id - 0x100) / 64))
  else if id = 0xE9 then
    (match c.saveKey with
     | some k => c.send 1 (.port (0x1000 + k) (v &&& BitVec.ofNat 64 (portMask id)))
     | none => c)
  else if id = 0xEA then
    (match c.saveKey with
     | some k => c.send 1 (.port (0x1001 + k) (v &&& BitVec.ofNat 64 (portMask id)))
     | none => c)
  else c.send 1 (.port id v)

/-- One move performed after the operand moves, in slot order (R96, R113, R137). -/
def doMove (p next : Nat) (win : List Mv) (d : Dev) (m : Mv) : Dev :=
  match portKind m.dst with
  | .reg => onCore p (regMove m.dst m.v) d
  | .trigger =>
    if cuControl m.dst then
      (if m.dst = 0x3C2 ∨ m.dst = 0x3C3 then onCore p (fun c => c.send 1 (.port 0x9F (BitVec.ofNat 64 next))) d else d)
    else if win.contains m then trigUnit p m.dst m.v m.sat d else d
  | _ => d

/-- A WAIT just issued ends at once if its condition already holds, and a FENCE with nothing to wait for
(R176, R206). -/
def settleHolds (p : Nat) (d : Dev) : Dev :=
  let c := core d p
  let d1 := doIf (c.fence && c.wb.isEmpty && !c.ext.any (fun e => match e.work with
      | .range _ _ _ _ | .irange _ _ | .ifill _ _ => true
      | _ => false)) (onCore p (fun c => { c with fence := false })) d
  wakeNow id p d1

/-- One cycle of a stall before issue (R115, R176). -/
def stallOnce (p : Nat) (d : Dev) : Dev := onCore p (fun c => { (c.count 0xF1 1).spend 1 with landed := [] }) d

/-- A legal bundle issues, or stalls, or faults: `ms` the moves whose guards hold, `off` the predicted branch whose
guard is false (R96, R115, R171). -/
def issueMoves (p fmt : Nat) (ms : List Mv) (off : Option Bool) (d0 : Dev) : Dev :=
  let d := settle p (onCore p (fun c => c.syncDue c.issued) d0)
  let c := core d p
  let pc := c.pc
  match ms.find? (fun m => m.dst == 0x3C5) with
  | some m => if c.level = 0 then faultOpen p 4 none (some m.n) pc d else run d c pc
  | none => run d c pc
where
  /-- The bundle after the RTI check. -/
  run (d : Dev) (c : Core) (pc : Nat) : Dev :=
    if stallsSb d c ms then stallOnce p d
    else match lsuFault c ms with
      | some (r, n) => faultEntry p 3 r n pc d
      | none =>
        let win := winners ms
        let dc := eccCorrected p (lsuCorrects c ms) d
        let d1 := onCore p (operandMoves ms) dc
        let d2 := ms.foldl (doMove p ((pc + 64) % 2 ^ 40) win) d1
        let stall := bankStall (ms.filterMap Mv.src ++ win.flatMap unitRegs) (core d2 p) + lsuBankStall c ms +
          spindleStall (freshVal d2) d p ms
        let ctl := ms.find? (fun m => cuControl m.dst)
        let d3 := onCore p (fun x =>
          let x1 := match off with | some ret => x.notTaken ret | none => x
          let x2 := (cuEffect pc ctl x1).spend (1 + stall)
          let x3 := { x2.count 0xEF 1 with landed := [], landAt := c.num 0xEE + 1 + stall }
          if stall = 0 then x3 else x3.count 0xF0 stall) (doIf (spindleMeets d p ms) freshNext d2)
        let d4 := if fmt = 2 then onCore p (fun x => (x.syncAll.loopStates).spend 5) (drain p d3) else d3
        settleHolds p d4

/-- The pair comes to issue a bundle: an entry that was confirmed is over at cycle 20, whether or not its first handler
bundle then issues (R129, R130), and loop levels that skip are evaluated (R183). -/
def atIssue (p : Nat) (d : Dev) : Dev := onCore p (fun c => { c with entry := none }.skipLoops) d

/-- A pair that comes to issue: `f` goes on with it. A FENCE holds the bundle, and its waiting cycles count (R176); a
pair that does not issue, or is held otherwise, stays as it is. -/
def issueWith (p : Nat) (f : Dev → Dev) (d : Dev) : Dev :=
  if !running d p then d
  else if unheld (core d p) then f (atIssue p d)
  else if (core d p).fence && (core d p).waiting.isNone then stallOnce p d
  else d

/-- Issue for a command that names one operation (R96): nothing happens while the pair cannot issue. -/
def issueOne (p port : Nat) (v : Word) (sat : Bool) (d : Dev) : Dev :=
  issueWith p (issueMoves p 0 (oneMove port v sat) none) d

/-! ### Fetch -/

/-- The prefetch queue holds up to four bundles after `a` that the instruction cache has (R118). -/
def Core.prefetch (a : Nat) : Nat → Core → List (Nat × Nat)
  | 0, _ => []
  | n + 1, c =>
    let a1 := (a + 64) % 2 ^ 40
    match c.queue.find? (fun e => e.1 == a1) with
    | some e => e :: Core.prefetch a1 n c
    | none => match c.iFind a1 with
      | some b => (a1, b) :: Core.prefetch a1 n c
      | none => []

/-- The next bundle: from the prefetch queue, else from the instruction cache. -/
def Core.fetch (c : Core) : Option Nat :=
  match c.queue.find? (fun e => e.1 == c.pc) with
  | some e => some e.2
  | none => c.iFind c.pc

/-- The branch of a bundle, if it holds one that is predicted: RTI is not (R117, R119). -/
def branchSlot (b : Nat) : Option Slot := (slotsOf b).find? (fun s => decide (0x3C0 ≤ s.dst) && decide (s.dst ≤ 0x3C4))

/-- Where fetch goes on after the branch `s` of the bundle `b` at `a`, as PD predicts with the history `h` (R119, R121):
the address, and the history that the prediction leaves. -/
def Core.predicted (c : Core) (a b h : Nat) (s : Slot) : Nat × Nat :=
  let v : Option Word := if s.imm then some (immOf s)
    else if s.src = 0xD8 then some ((BitVec.ofNat 24 (bits b 23 0)).signExtend 64)
    else if s.src = 0xD9 then some (BitVec.ofNat 64 (bits b 23 0))
    else none
  let next := (a + 64) % 2 ^ 40
  let target : Nat := match v with
    | some v => if s.dst % 2 = 1 then ofSigned 40 ((a : Int) + 64 * v.toInt) else v.toNat % 2 ^ 40 / 64 * 64
    | none => next
  if s.dst = 0x3C4 then (c.returns.headD 0, h)
  else if v.isNone && s.dst % 2 == 0 then (next, h)
  else if s.guard = 0 then (target, h)
  else
    let t := decide (2 ≤ tget (fun _ => 0) c.predictor (bits a 17 6 ^^^ h))
    (if t then target else next, (h * 2 + b2n t) % 4096)

/-- Whether the next `n` bundles of the predicted path from `a` on are cached and each hold a predicted branch. -/
def Core.branchRun (c : Core) : Nat → Nat → Nat → Bool
  | 0, _, _ => true
  | n + 1, a, h =>
    match c.iFind a with
    | none => false
    | some b => match branchSlot b with
      | none => false
      | some s => let r := c.predicted a b h s; c.branchRun n r.1 r.2

/-- The cycle for which a fifth predicted branch holds F1 while four are between PD and issue (R120): the four bundles of
the queue and the one behind them each hold one. Static prediction needs no checkpoint (R122). -/
def Core.fifthBranch (b : Nat) (c : Core) : Nat :=
  if c.sp then 0
  else
    let r := match branchSlot b with
      | some s => c.predicted c.pc b (c.num 0xFA) s
      | none => ((c.pc + 64) % 2 ^ 40, c.num 0xFA)
    b2n (c.branchRun 5 r.1 r.2)

/-- Whether a slot's guard holds (R102, R103). -/
def guardHolds (c : Core) (s : Slot) : Bool :=
  if s.guard = 0 then true
  else if s.guard < 8 then bit (c.num (0xD0 + s.guard)) 0
  else !bit (c.num (0xD0 + (s.guard - 8))) 0

/-- The moves of a bundle whose guards hold, with their sources read (R96, R98, R103, R104). -/
def movesOf (p b : Nat) (c : Core) : List Mv :=
  ((slotsOf b).filter (guardHolds c)).map (fun s =>
    ⟨s.n, s.dst, if s.imm then immOf s else c.read p (bits b 23 0) s.src, s.sat,
      if s.imm then none else some s.src, s.guard != 0⟩)

/-- A predicted branch whose guard is false, if the bundle has one: true for a RET, false for one predicted by its counter;
a register source is predicted not taken, and rightly (R119). -/
def branchOff (b : Nat) (c : Core) : Option Bool :=
  ((slotsOf b).find? (fun s => !guardHolds c s && (s.dst == 0x3C1 || s.dst == 0x3C3 || s.dst == 0x3C4 ||
      ((s.dst == 0x3C0 || s.dst == 0x3C2) && (s.imm || s.src == 0xD8 || s.src == 0xD9))))).map (fun s => s.dst == 0x3C4)

/-- The debug halt of a pair (R105, R382). -/
def debugHalt (p : Nat) (d : Dev) : Dev := raise (plyBlk p) 4 (wr (wr d (plyPstateState p) 7) (plyDbgHalted p) 1)

/-- A fetched bundle: BRK, then legality, then issue; a guard that waits for a result stalls it (R105, R106, R115). A
branch held for want of a checkpoint counts in STALL_FETCH (R120). -/
def issueBits (p b : Nat) (d0 : Dev) : Dev :=
  let d := settle p (onCore p (fun c => c.syncDue c.issued) d0)
  let c := core d p
  if bit b 29 && bit (c.num 0xE0) 4 then debugHalt p d
  else match illegal b with
    | some (r, n) => faultOpen p 1 (some r) (if r ≤ 2 then none else some n) c.pc d
    | none =>
      let d1 := onCore p (fun c => { c with queue := Core.prefetch c.pc 4 c }.count 0xF2 (c.fifthBranch b)) d
      if (slotsOf b).any (fun s => s.guard != 0 && c.busy (0xD0 + s.guard % 8)) then stallOnce p d1
      else issueMoves p (fmtField b) (movesOf p b c) (branchOff b c) d1

/-- One bundle issues, or the fetch misses, or waits for its line (R118, R180). An ECC upset of the instruction cache is
corrected and counted, or, where it cannot be, the fetch fails (R370; log entry 129). -/
def issueNext (p : Nat) (d : Dev) : Dev :=
  let c := core d p
  let wait (c : Core) : Core := { (c.count 0xF2 1).spend 1 with landed := [] }
  if c.miss.isSome then onCore p wait d
  else match c.fetch with
    | some b =>
      let ups := c.iUpsets c.pc
      if ups.contains true then faultOpen p 2 none none c.pc d
      else issueBits p b (eccCorrected p ups.length d)
    | none => onCore p (fun c => wait { c with miss := some (lineOf c.pc) }) d

/-- BUNDLE_ISSUE: one issue opportunity of pair `p` (R96). -/
def doBundleIssue (p : Nat) (d : Dev) : Dev := issueWith p (issueNext p) d

/-- FIXED_LATENCY_LAND: the results whose delay has passed land (R111). -/
def doFixedLatencyLand (p : Nat) (d : Dev) : Dev := settle p d

/-- SYNC_CLASS_APPLY: the synchronised writes that govern the next bundle take effect (R123). -/
def doSyncClassApply (p : Nat) (d : Dev) : Dev := onCore p (fun c => c.syncDue c.issued) d

/-- SYNC_BUNDLE: a bundle of FMT 0b10 without moves (R124). -/
def doSyncBundle (p : Nat) (d : Dev) : Dev :=
  issueWith p (issueMoves p 2 [] none) d

/-- A move to a register, a CSR or an operand port, as the only move of a bundle. -/
def doRegMove (p port : Nat) (v : Word) (d : Dev) : Dev := issueOne p port v false d

/-- DIV_RESULT_LAND (R148, R151). -/
def doDivResultLand (p : Nat) (d : Dev) : Dev :=
  match (core d p).div with
  | some o => onCore p (fun c => { c with div := none }) (iterLand p 0x380 o d)
  | none => d

/-- FPU_ITER_LAND (R153, R156). -/
def doFpuIterLand (p : Nat) (d : Dev) : Dev :=
  match (core d p).fpi with
  | some o => onCore p (fun c => { c with fpi := none }) (iterLand p 0x340 o d)
  | none => d

/-- The line the fetch waits for is read; an error enters FETCH_ERROR (R107, R178, R180). -/
def doIcacheMissFill (p : Nat) (err : MemErr) (d : Dev) : Dev :=
  let c := core d p
  match c.miss with
  | none => d
  | some a =>
    if err = .none ∧ (inRam a || inRom a) ∧ !fenced d a 64 then
      let b := rdN d a 64
      let d1 := freshNext (onCore p (Core.iFill a b (freshVal d)) d)
      onCore p (fun c => { c with miss := none, queue := (a, b) :: c.queue.filter (fun e => e.1 != a) }) d1
    else faultOpen p 2 none none c.pc (onCore p (fun c => { c with miss := none }) d)

end Sys2Proof.Machine
end

