-- ==== Sys2Proof/Machine/OpCmd.lean ====
section
/-! DEFINITION. A command that names one core operation: the issue of a bundle whose only move writes the operation's
trigger port (R96, R97), and the port IDs of the replicated units. -/

namespace Sys2Proof.Machine

/-- Pair `p` issues the one move of `v` to `port`, with S = `sat`. -/
def opCmd (p : Pair) (port : Nat) (v : Word) (sat : Bool) (s : State) : Result := onDev s (issueOne p.val port v sat)

/-- Port of CMAC `c` at base offset `base` of its operation, for accumulator `k` (R138). -/
def cmacPort (c : Fin 4) (base : Nat) (k : Fin 4) : Nat := 0x100 + 64 * c.val + base + k.val

/-- Port of ALU `u` at offset `o` (R144). -/
def aluPort (u : Fin 4) (o : Nat) : Nat := 0x280 + 32 * u.val + o

/-- Port of the FPU operation at binary32 offset `o`; the binary64 one lies 0x10 above (R153). -/
def fpuPort (o : Nat) (dbl : Bool) : Nat := 0x340 + o + b2n dbl * 0x10

/-- Port of LSU `u` at offset `o` (R166). -/
def lsuPort (u : Fin 2) (o : Nat) : Nat := 0x200 + 64 * u.val + o

end Sys2Proof.Machine
end

