-- ==== Sys2Proof/Machine/ExecAlu.lean ====
section
/-! DEFINITION. The commands of the ALUs (R144 to R146). -/

namespace Sys2Proof.Machine

/-- ADD32 (R144). -/
def execAdd32 (p : Pair) (u : Fin 4) (b : Word) (sat : Bool) (s : State) : Result :=
  opCmd p (aluPort u 0x08) b sat s

/-- ADD64 (R144). -/
def execAdd64 (p : Pair) (u : Fin 4) (b : Word) (sat : Bool) (s : State) : Result :=
  opCmd p (aluPort u 0x09) b sat s

/-- SUB32 (R144). -/
def execSub32 (p : Pair) (u : Fin 4) (b : Word) (sat : Bool) (s : State) : Result :=
  opCmd p (aluPort u 0x0a) b sat s

/-- SUB64 (R144). -/
def execSub64 (p : Pair) (u : Fin 4) (b : Word) (sat : Bool) (s : State) : Result :=
  opCmd p (aluPort u 0x0b) b sat s

/-- ADDX32 (R146). -/
def execAddx32 (p : Pair) (u : Fin 4) (b : Word) (s : State) : Result := opCmd p (aluPort u 0x0c) b false s

/-- ADDX64 (R146). -/
def execAddx64 (p : Pair) (u : Fin 4) (b : Word) (s : State) : Result := opCmd p (aluPort u 0x0d) b false s

/-- SUBX32 (R146). -/
def execSubx32 (p : Pair) (u : Fin 4) (b : Word) (s : State) : Result := opCmd p (aluPort u 0x0e) b false s

/-- SUBX64 (R146). -/
def execSubx64 (p : Pair) (u : Fin 4) (b : Word) (s : State) : Result := opCmd p (aluPort u 0x0f) b false s

/-- AND (R144). -/
def execAnd (p : Pair) (u : Fin 4) (b : Word) (s : State) : Result := opCmd p (aluPort u 0x10) b false s

/-- OR (R144). -/
def execOr (p : Pair) (u : Fin 4) (b : Word) (s : State) : Result := opCmd p (aluPort u 0x11) b false s

/-- XOR (R144). -/
def execXor (p : Pair) (u : Fin 4) (b : Word) (s : State) : Result := opCmd p (aluPort u 0x12) b false s

/-- ANDN (R144). -/
def execAndn (p : Pair) (u : Fin 4) (b : Word) (s : State) : Result := opCmd p (aluPort u 0x13) b false s

/-- SHL (R145). -/
def execShl (p : Pair) (u : Fin 4) (b : Word) (sat : Bool) (s : State) : Result := opCmd p (aluPort u 0x14) b sat s

/-- SHR (R144). -/
def execShr (p : Pair) (u : Fin 4) (b : Word) (s : State) : Result := opCmd p (aluPort u 0x15) b false s

/-- SAR (R144). -/
def execSar (p : Pair) (u : Fin 4) (b : Word) (s : State) : Result := opCmd p (aluPort u 0x16) b false s

/-- SAR32 (R144). -/
def execSar32 (p : Pair) (u : Fin 4) (b : Word) (s : State) : Result := opCmd p (aluPort u 0x17) b false s

/-- CLZ32 (R144). -/
def execClz32 (p : Pair) (u : Fin 4) (b : Word) (s : State) : Result := opCmd p (aluPort u 0x18) b false s

/-- CLZ64 (R144). -/
def execClz64 (p : Pair) (u : Fin 4) (b : Word) (s : State) : Result := opCmd p (aluPort u 0x19) b false s

/-- CLS32 (R144). -/
def execCls32 (p : Pair) (u : Fin 4) (b : Word) (s : State) : Result := opCmd p (aluPort u 0x1a) b false s

/-- CMPEQ (R144). -/
def execCmpeq (p : Pair) (u : Fin 4) (b : Word) (s : State) : Result := opCmd p (aluPort u 0x1b) b false s

/-- CMPLT (R144). -/
def execCmplt (p : Pair) (u : Fin 4) (b : Word) (s : State) : Result := opCmd p (aluPort u 0x1c) b false s

/-- CMPLTU (R144). -/
def execCmpltu (p : Pair) (u : Fin 4) (b : Word) (s : State) : Result := opCmd p (aluPort u 0x1d) b false s

/-- MIN (R144). -/
def execMin (p : Pair) (u : Fin 4) (b : Word) (s : State) : Result := opCmd p (aluPort u 0x1e) b false s

/-- MAX (R144). -/
def execMax (p : Pair) (u : Fin 4) (b : Word) (s : State) : Result := opCmd p (aluPort u 0x1f) b false s

end Sys2Proof.Machine
end

