-- ==== Sys2Proof/Machine/Cont.lean ====
section
/-! DEFINITION. Supervised contacts, RS-485 ports, relay drivers and the front-edge LEDs (R447 to R456). -/

namespace Sys2Proof.Machine

/-! ### Contacts (R447, R448, R453) -/

/-- CONT measures, and its ports work. -/
def contRunning (d : Dev) : Bool := flag d (hdrActive .cont)

/-- THRESH_OPEN as it acts: above 20,000 it is a reserved encoding and acts as its reset value (R19, R453). -/
def contOpen (d : Dev) : Nat := if 20000 < rd d contThreshOpen then 12000 else rd d contThreshOpen

/-- The thresholds as the registers give them: those that do not ascend are a reserved encoding (R19, R448). -/
def contRegThresholds (d : Dev) : Nat × Nat × Nat :=
  let s := rd d contThreshShort
  let a := rd d contThreshActive
  if s < a ∧ a < contOpen d then (s, a, contOpen d) else (200, 2000, 12000)

/-- The millisecond of the frame: eight frames (DESIGN CHOICE, log entry 166). -/
def contMs (d : Dev) : Word := d.clk.frame / 8

/-- The thresholds a reading is classified under: those before the first threshold write of its millisecond (R455). -/
def contThresholds (d : Dev) : Nat × Nat × Nat :=
  match d.cont.thrAt with
  | some (ms, t) => if ms = contMs d then t else contRegThresholds d
  | none => contRegThresholds d

/-- A write of a threshold is about to be performed: the thresholds of this millisecond are kept (R455). -/
def contKeepThresholds (d : Dev) : Dev :=
  { d with cont := { d.cont with thrAt := some (contMs d, contThresholds d) } }

/-- DEBOUNCE in force (R19, R453). -/
def contDebounceN (d : Dev) : Nat := if rd d contDebounce = 0 then 4 else rd d contDebounce

/-- The class of a reading (R448): 0 NORMAL, 1 ACTIVE, 2 OPEN, 3 SHORT. -/
def contClass (t : Nat × Nat × Nat) (ohms : Nat) : Nat :=
  if ohms < t.1 then 3 else if ohms < t.2.1 then 1 else if ohms ≤ t.2.2 then 0 else 2

/-- A contact nothing was read of. -/
def Contact.reset : Contact := { cls := 0, run := 0 }

/-- An input's STATE is settled, with the record of a change (R448, R453). -/
def contSettle (n cls ohms : Nat) (d : Dev) : Dev :=
  let old := rd d (contState n)
  let d1 := wr d (contMeasured n) 1
  if old = cls then d1
  else
    raise .cont 0 (logEv 0x6001 0 0 [(2, n), (2, old), (2, cls), (4, ohms)] 0
      (wr (wr d1 (contState n) cls) contChanged (putBit (rd d1 contChanged) n true)))

/-- The reading of a loop: 0xFFFF above 20 kΩ (R447). -/
def contReading (ohms : Nat) : Nat := if 20000 < ohms then 0xFFFF else ohms

/-- CONTACT_READING: a loop is measured and classified (R447, R448). -/
def doContactReading (n loop : Nat) (d : Dev) : Dev :=
  if !contRunning d || !bit (rd d contEnable) n then d
  else
    let ohms := contReading loop
    let cls := contClass (contThresholds d) ohms
    let c := tget (fun _ => Contact.reset) d.cont.inputs n
    let run := if c.run ≠ 0 ∧ c.cls = cls then min (c.run + 1) 15 else 1
    let inputs := tset (fun _ => Contact.reset) d.cont.inputs n { cls := cls, run := run }
    let d1 := wr { d with cont := { d.cont with inputs := inputs } } (contOhms n) ohms
    doIf (decide (contDebounceN d ≤ run)) (contSettle n cls ohms) d1

/-- EN cleared: measurement stops and every MEASURED bit reads 0 (R453). A receive entry stays open until its line has been
idle (DEDUCED, log entry 167). -/
def contDisable (d : Dev) : Dev :=
  forN 32 (fun n d => wr d (contMeasured n) 0) { d with cont := { d.cont with inputs := [], finished := [] } }

/-! ### RS-485 (R451 to R453) -/

/-- A port with no entry open. -/
def Serial.reset : Serial := { rx := [], flags := 0 }

/-- Port `p`. -/
def serialPort (d : Dev) (p : Nat) : Serial := tget (fun _ => Serial.reset) d.cont.ports p

/-- Port `p` set. -/
def putPort (p : Nat) (s : Serial) (d : Dev) : Dev :=
  { d with cont := { d.cont with ports := tset (fun _ => Serial.reset) d.cont.ports p s } }

/-- The 16 bytes of an entry (R452). -/
def serialEntry (s : Serial) : List Byte :=
  (leBytes 1 s.rx.length ++ leBytes 1 s.flags ++ s.rx ++ leBytes 14 0).take 16

/-- The open receive entry closes into RX_Q; one that RX_Q does not take is dropped and counted (R452). -/
def serialClose (p : Nat) (d : Dev) : Dev :=
  let s := serialPort d p
  if s.rx.isEmpty then d
  else
    let d1 := putPort p Serial.reset d
    if !flag d (contRxValid p) then d1
    else
      let q := rd d (contRxQ p)
      if (rdCtx d q).esize ≠ 0 then inc d1 (contRxDrop p)
      else
        let r := bobEnq (bobRunning d1) 0 false q (serialEntry s) .none d1
        if r.1 = 0 then raise .cont 1 r.2 else inc r.2 (contRxDrop p)

/-- Port `p` takes a character: it runs, or EN was cleared while a character was in progress (R453; log entry 167). -/
def portTakes (d : Dev) (p : Nat) : Bool :=
  flag d (contPortEn p) && (contRunning d || (flag d (hdrQuiescing .cont) && !d.cont.finished.contains p))

/-- A character that ends after EN was cleared is the port's last (R453). -/
def portFinish (p : Nat) (d : Dev) : Dev :=
  if contRunning d then d else { d with cont := { d.cont with finished := d.cont.finished ++ [p] } }

/-- RS485_CHAR_RX: a character arrives (R451 to R453). -/
def doRs485CharRx (p : Nat) (char : Byte) (parityErr framingErr brk : Bool) (d0 : Dev) : Dev :=
  if !portTakes d0 p then d0
  else
    let d := portFinish p d0
    let par := parityErr && (rd d (contParity p) == 1 || rd d (contParity p) == 2)
    let s := serialPort d p
    let fl := (s.flags ||| b2n par) ||| (2 * b2n framingErr) ||| (4 * b2n brk)
    let d1 := putPort p { rx := s.rx ++ [char], flags := fl } (doIf (par || framingErr) (fun d => inc d (contErrFrames p)) d)
    doIf (decide (14 ≤ s.rx.length + 1)) (serialClose p) d1

/-- RS485_IDLE_CLOSE: two character times of idle line close the open entry (R452). -/
def doRs485IdleClose (p : Nat) (d : Dev) : Dev := serialClose p d

/-- The parity bit of a character: PARITY 1 even, 2 odd, else none; the reserved value acts as none (R19, R451, R453). -/
def parityBit (mode : Nat) (c : Byte) : Option Bool :=
  let odd := ((List.range 8).filter (fun i => c.getLsbD i)).length % 2 == 1
  if mode = 1 then some odd else if mode = 2 then some (!odd) else none

/-- DIV in force (R19, R453). -/
def contDivN (d : Dev) (p : Nat) : Nat := if rd d (contDiv p) = 0 then 1600 else rd d (contDiv p)

/-- What a port sends of an entry's characters, newest first: the driver is on from the first start bit to the last stop bit
(R451). -/
def serialSent (d : Dev) (p : Nat) (chars : List Byte) : List SerialOut :=
  [.driverOff p] ++
  (chars.map (fun c => .char p c (parityBit (rd d (contParity p)) c) (1 + rd d (contStop2 p)) (contDivN d p))).reverse ++
  [.driverOn p]

/-- RS485_TX_ENTRY: an entry of TX_Q is taken and its characters sent (R451, R452). -/
def doRs485TxEntry (p : Nat) (d : Dev) : Dev :=
  if !contRunning d || !flag d (contPortEn p) || !flag d (contTxValid p) || (rdCtx d (rd d (contTxQ p))).esize != 0 then d
  else
    let r := bobDeq (bobRunning d) 0 (rd d (contTxQ p)) false .none d
    if r.1 = 0 then
      let n := min 14 ((nth r.2.1 0 0).toNat)
      let chars := (r.2.1.drop 2).take n
      { r.2.2 with out := { r.2.2.out with serial := serialSent d p chars ++ r.2.2.out.serial } }
    else r.2.2

/-! ### Relays (R450, R454, R455) -/

/-- The drivers follow OUT, where EN is set and no trip holds; READBACK follows the drivers (R450, R454). -/
def relDrive (d : Dev) : Dev :=
  let on := if flag d (hdrEn .rel) then (rd d relOut) &&& ((2 ^ 16 - 1) ^^^ d.cont.tripped) else 0
  wr { d with cont := { d.cont with relOn := on } } relReadback on

/-- OUT written: a bit written 0 releases a trip, so that a later 1 starts the driver again (R450, R455). -/
def relWrite (v : Nat) (d : Dev) : Dev :=
  relDrive (wr { d with cont := { d.cont with tripped := d.cont.tripped &&& v } } relOut v)

/-- REL_OVERCURRENT: a current limit held for 100 µs switches a driver off (R450, R455). -/
def doRelOvercurrent (n : Nat) (d : Dev) : Dev :=
  if bit d.cont.relOn n then
    raiseEdge .rel 0 (rd d relOc != 0) true (wr (relDrive { d with cont := { d.cont with tripped := putBit d.cont.tripped n true } }) relOc
      (putBit (rd d relOc) n true))
  else d

/-- REL_MISMATCH: READBACK has differed from OUT for 2 ms (R450). -/
def doRelMismatch (n : Nat) (d : Dev) : Dev :=
  raiseEdge .rel 1 (rd d relMismatch != 0) true (wr (wr d relReadback (putBit (rd d relReadback) n (!bit (rd d relOut) n))) relMismatch
    (putBit (rd d relMismatch) n true))

/-! ### Status LEDs (R456) -/

/-- What an LED shows. -/
inductive Led where
  | off | on | slow | fast
  deriving DecidableEq, Repr

/-- The green LED. -/
def ledGreen (st : TwinState) (d : Dev) : Led :=
  if !d.bist.powered then .off
  else if rd d bistPstatusPmode = 2 ∨ rd d bistPstatusPmode = 4 then .slow
  else if st = .startUp then .fast
  else .on

/-- The blue LED. -/
def ledBlue (st : TwinState) : Led :=
  match st with
  | .startUp | .quiet => .off
  | .owner | .alone => .on
  | .partner => .slow
  | .joining => .fast

/-- Every block instance. -/
def allBlks : List Blk :=
  [.mod, .gw] ++ (List.range 16).map (fun h => .hue (Fin.ofNat 16 h)) ++ [.evc, .spindle, .bobbin, .cht, .seq, .log] ++
  (List.range 12).map (fun p => .ply (Fin.ofNat 12 p)) ++ [.strm 0, .strm 1, .ptp] ++
  (List.range 12).map (fun k => .tdm (Fin.ofNat 12 k)) ++ [.sup, .tag, .wear, .twin, .bist, .cont, .rel, .stor]

/-- The amber LED. -/
def ledAmber (d : Dev) : Led :=
  if d.bist.bootFailed then .fast else if allBlks.any (fun b => flag d (hdrError b)) then .on else .off

/-- The red LED: fast for 10 s, 80,000 frames, after each crimson record (a time step moves the record's frame with the frame
number, `stepTime`). -/
def ledRed (d : Dev) : Led :=
  if rd d bistPstatusPmode = 6 then .on
  else if d.bist.bootFailed then .fast
  else match d.log.crimson with
    | some f => if (d.clk.frame - f).toNat < 80000 then .fast else .off
    | none => .off

end Sys2Proof.Machine
end

