-- ==== Sys2Proof/Machine/Commit.lean ====
section
/-! DEFINITION. Control changes on their way to a commit point (R28, R29, R398). -/

namespace Sys2Proof.Machine

/-- A change scoped to one module: ARM or CANCEL with BOTH = 0 (R83, R84, R398). -/
def oneModule : ChangeOp → Bool
  | .arm _ both _ _ => !both
  | .cancel _ both => !both
  | _ => false

/-- Whether a change applies in this module: a one-module change only where it was written (R83, R84, R398). -/
def appliesHere (slotB : Bool) : ChangeOp → Bool
  | .arm s both _ _ => both || s == slotB
  | .cancel s both => both || s == slotB
  | _ => true

/-- A write by one of the module's core pairs (R398). -/
def fromCore : Initiator → Bool
  | .core _ => true
  | _ => false

/-- A PTP step carries the offset that the module which numbers it measured (R302, R400). -/
def withOffset (d : Dev) : ChangeOp → ChangeOp
  | .ptpStep _ => .ptpStep d.ptp.filt
  | op => op

/-- A change numbered, held, and sent to the peer (R398). -/
def numberChange (op : ChangeOp) (hank : Option HankTag) (d : Dev) : Dev :=
  let c : Held := { num := d.commit.count + 1, op := withOffset d op, hank := hank }
  sendMsg (.change c)
    { d with commit := { d.commit with count := d.commit.count + 1, held := d.commit.held ++ [c] } }

/-- A control change received by this module (R398): the partner forwards it to the owner, and discards those
of its own core pairs but for one-module changes; any other module numbers and holds it. -/
def submit (st : TwinState) (ini : Initiator) (op : ChangeOp) (hank : Option HankTag) (d : Dev) : Dev :=
  if st = .partner then
    if fromCore ini && !oneModule op then d
    else sendMsg (.changeFwd op hank)
      { d with commit := { d.commit with forwarded := d.commit.forwarded ++ [(op, hank)] } }
  else numberChange op hank d

/-- The commit numbers begin again from 1: the changes still held keep their order (R46, R398). -/
def renumber (d : Dev) : Dev :=
  { d with commit := { d.commit with applied := 0, count := d.commit.held.length,
                                     held := d.commit.held.mapIdx (fun i c => { c with num := i + 1 }) } }

/-- The held changes that wait on a condition of the operation. -/
def heldAny (d : Dev) (f : ChangeOp → Bool) : Bool := d.commit.held.any (fun c => f c.op)

/-- This module sits in slot B (R42). -/
def slotB (d : Dev) : Bool := flag d modSlotB

end Sys2Proof.Machine
end

