-- ==== Sys2Proof/Machine/Crc.lean ====
section
/-! DEFINITION. The cyclic checks of the manual: CRC-32C (R393, R429), CRC-64/XZ (R397, R402), and
CRC-16/CCITT (R345, R347). -/

namespace Sys2Proof.Machine

/-- One bit of a reflected CRC with polynomial `poly` (reflected). -/
def crcStep (poly c : Nat) : Nat := if c % 2 = 1 then (c / 2) ^^^ poly else c / 2

/-- One byte of a reflected CRC. -/
def crcByte (poly c b : Nat) : Nat :=
  let x := c ^^^ b
  crcStep poly (crcStep poly (crcStep poly (crcStep poly (crcStep poly (crcStep poly (crcStep poly (crcStep poly x)))))))

/-- CRC-32C: polynomial 0x1EDC_6F41 reflected, initial and final XOR all ones (R393). -/
def crc32c (l : List Byte) : Nat :=
  (l.foldl (fun c b => crcByte 0x82F63B78 c b.toNat) 0xFFFFFFFF) ^^^ 0xFFFFFFFF

/-- CRC-64/XZ: polynomial 0x42F0_E1EB_A9EA_3693 reflected, initial and final XOR all ones (R397). -/
def crc64 (l : List Byte) : Nat :=
  (l.foldl (fun c b => crcByte 0xC96C5795D7870F42 c b.toNat) 0xFFFFFFFFFFFFFFFF) ^^^ 0xFFFFFFFFFFFFFFFF

/-- One byte of CRC-16/CCITT, most significant bit first (R349). -/
def crc16Byte (c b : Nat) : Nat :=
  (List.range 8).foldl (fun c _ => if c / 2 ^ 15 % 2 = 1 then (c * 2 % 2 ^ 16) ^^^ 0x1021 else c * 2 % 2 ^ 16) (c ^^^ (b * 256))

/-- CRC-16/CCITT with initial value 0xFFFF, neither reflected nor inverted at the end (R349). -/
def crc16 (l : List Byte) : Nat := l.foldl (fun c b => crc16Byte c b.toNat) 0xFFFF

end Sys2Proof.Machine
end

