-- ==== Sys2Proof/Machine/LogBlock.lean ====
section
/-! DEFINITION. The event log's writer (R273, R274, R277, R278). -/

namespace Sys2Proof.Machine

/-- The 64 bytes of a record with its number (R274). -/
def recBytes (r : LogRec) (seqno : Nat) : List Byte :=
  leBytes 64 (r.time.toNat + r.frame.toNat * 2 ^ 64 +
    (r.typ.toNat + r.hue.toNat * 2 ^ 16 + r.sev.toNat * 2 ^ 20 + seqno % 2 ^ 32 * 2 ^ 32) * 2 ^ 128 +
    r.payload % 2 ^ 256 * 2 ^ 192 + r.arg.toNat * 2 ^ 448)

/-- `LOG.BOBBIN` is enabled, owned by H0 and of ESIZE 64 (R273). -/
def logRingOk (d : Dev) : Bool :=
  let c := rdCtx d (rd d logBobbin)
  c.en && c.owner == 0 && c.esize == 2

/-- The series of LOST records for the losses counted so far: seven types to a record, the OTHER count in the
first (R277). -/
def lostSeries (d : Dev) : Nat → List LossCount → Nat → List LogRec
  | 0, _, _ => []
  | n + 1, l, other =>
    if l.isEmpty && other == 0 && n + 1 < 64 then []
    else
      let pairs := (l.take 7).mapIdx (fun i x => (x.typ.toNat + x.count * 2 ^ 16) * 2 ^ (32 * i))
      { time := d.log.lossFirst, frame := d.clk.frame, typ := 0x1501, hue := 0, sev := d.log.lossSev
        payload := pairs.sum + other % 2 ^ 32 * 2 ^ 224, arg := d.log.lossLast } ::
      lostSeries d n (l.drop 7) 0

/-- A loss has occurred that is due to be reported: the ring has accepted a record since, and the FIFO has
room for an ordinary event (R277). -/
def lostDue (d : Dev) : Bool :=
  !(d.log.losses.isEmpty && d.log.other == 0) && d.log.accepted && decide (d.log.fifo.length < 480)

/-- The losses counted up to now become a series, and their counts restart from zero (R277). -/
def formSeries (d : Dev) : Dev :=
  if d.log.series.isEmpty && lostDue d then
    { d with log := { d.log with series := lostSeries d 64 d.log.losses d.log.other, losses := [], other := 0,
                                 accepted := false } }
  else d

/-- One attempt to write a record to the ring: on acceptance `done` removes it, on FULL or MEM_ERROR it is held (R273). -/
def logAttempt (r : LogRec) (err : MemErr) (done : LogSt → LogSt) (d : Dev) : Dev :=
  if !logRingOk d then
    let d1 := { d with log := { d.log with bad := true } }
    if d.log.bad then d1 else captureErr .log 0x0100 (rd d logBobbin) d1
  else
    let q := rd d logBobbin
    let w := recBytes r (rd d logSeqno)
    let x := bobEnq (bobRunning d) 0 false q w err { d with log := { d.log with bad := false } }
    if x.1 = 0 then
      let d0 := { x.2 with log := { done x.2.log with retry := false, accepted := true } }
      let d1 := doIf (flag d storLogPersist) (fun d =>
        { d with stor := { d.stor with logPend := d.stor.logPend ++ [(rd d logSeqno, w)] } }) d0
      let d2 := raise .log 0 (wr d1 logSeqno (rd d1 logSeqno + 1))
      doIf (r.sev == 2) (raise .log 2) d2
    else
      let d1 := { x.2 with log := { x.2.log with retry := true } }
      if x.1 = 5 then captureErr .log 0x0101 q d1 else d1

/-- The log writes: it is running, or finishes a record in progress (R53, R278). -/
def logWriting (d : Dev) : Bool := flag d (hdrActive .log) || (flag d (hdrQuiescing .log) && d.log.retry)

/-- The next record due, LOST records first, is written or held (R273, R277). -/
def logNext (err : MemErr) (d0 : Dev) : Dev :=
  let d := formSeries d0
  if !logWriting d then d
  else match d.log.series, d.log.fifo with
    | r :: rs, _ => logAttempt { r with frame := d.clk.frame } err (fun l => { l with series := rs }) d
    | [], r :: rs => logAttempt r err (fun l => { l with fifo := rs }) d
    | [], [] => d

/-- LOG_WRITE: the next record is written, unless a refused one is still held (R273). -/
def doLogWrite (err : MemErr) (d : Dev) : Dev := if d.log.retry then d else logNext err d

/-- LOG_RETRY: a held record is tried again (R273). -/
def doLogRetry (err : MemErr) (d : Dev) : Dev := if d.log.retry then logNext err d else d

/-- LOST_RECORD_WRITE: the next LOST record of the series due (R277). -/
def doLostRecordWrite (d0 : Dev) : Dev :=
  let d := formSeries d0
  if d.log.retry || !logWriting d then d
  else match d.log.series with
    | r :: rs => logAttempt { r with frame := d.clk.frame } .none (fun l => { l with series := rs }) d
    | [] => d

/-- LOG_EVENT: an event of a block reaches the log (R274, R276, R278). -/
def doLogEvent (e : LogEvent) (d : Dev) : Dev :=
  logPush { time := ptpNs d, frame := d.clk.frame, typ := e.typ, hue := BitVec.ofNat 4 e.hue.val,
            sev := BitVec.ofNat 2 e.sev.val, payload := e.payload % 2 ^ 256, arg := e.arg } d

end Sys2Proof.Machine
end

