-- ==== Sys2Proof/Machine/Sequencer.lean ====
section
/-! DEFINITION. The announcement sequencer and hue resets (R257 to R272): commands, announcements, zone
arbitration, players and chimes. -/

namespace Sys2Proof.Machine

/-- The announcement in slot `a`. -/
def annGet (d : Dev) (a : Nat) : Option Ann := tget (fun _ => none) d.seq.anns a

/-- The announcement in slot `a` set, or the slot freed. -/
def annPut (a : Nat) (x : Option Ann) (d : Dev) : Dev :=
  { d with seq := { d.seq with anns := tset (fun _ => none) d.seq.anns a x } }

/-- The announcements with their slots, in slot order. -/
def annList (d : Dev) : List (Nat × Ann) := d.seq.anns.filterMap (fun e => e.2.map (fun x => (e.1, x)))

/-- A zone without a holder. -/
def Zone.empty : Zone := { holder := none, g0 := 0, gt := 0, f := 0, j := 0, gEnd := 0 }

/-- The state of zone `z`. -/
def zoneGet (d : Dev) (z : Nat) : Zone := tget (fun _ => Zone.empty) d.seq.zones z

/-- The state of zone `z` set. -/
def zonePut (z : Nat) (x : Zone) (d : Dev) : Dev :=
  { d with seq := { d.seq with zones := tset (fun _ => Zone.empty) d.seq.zones z x } }

/-- A player bound to nothing. -/
def Player.idle : Player :=
  { slot := none, ready := false, item := 0, pos := 0, left := 0, buffered := 0, dead := false, finished := false }

/-- A chime generator bound to nothing. -/
def Chime.idle : Chime := { slot := none, pattern := 0, note := 0, pos := 0, phase := 0, left := 0, finished := false }

/-- Player `p`. -/
def playerGet (d : Dev) (p : Nat) : Player := tget (fun _ => Player.idle) d.seq.players p
/-- Player `p` set. -/
def playerPut (p : Nat) (x : Player) (d : Dev) : Dev :=
  { d with seq := { d.seq with players := tset (fun _ => Player.idle) d.seq.players p x } }
/-- Chime generator `c`. -/
def chimeGet (d : Dev) (c : Nat) : Chime := tget (fun _ => Chime.idle) d.seq.chimes c
/-- Chime generator `c` set. -/
def chimePut (c : Nat) (x : Chime) (d : Dev) : Dev :=
  { d with seq := { d.seq with chimes := tset (fun _ => Chime.idle) d.seq.chimes c x } }

/-! ### Records (R265, R275) -/

/-- A completion record enqueued to CPL_Q of hue `h`, or dropped and counted (R265). -/
def cplRecord (h kind reason tag handle : Nat) (fr : Word) (d : Dev) : Dev :=
  let bad := cplBadNow d h
  let was := tget (fun _ => false) d.seq.cplBad h
  let d1 := { d with seq := { d.seq with cplBad := tset (fun _ => false) d.seq.cplBad h bad } }
  let d2 := doIf (bad && !was) (hueFault h 0x31) d1
  let entry := leBytes 32 (kind + reason * 2 ^ 8 + tag * 2 ^ 32 + handle * 2 ^ 64 + fr.toNat * 2 ^ 128)
  let r := if !flag d (hueCplValid h) || bad then (3, d2)
           else bobEnq (bobRunning d2) h false (rd d (hueCplQ h)) entry .none d2
  if r.1 = 0 then r.2
  else raise .seq 1 (captureErr .seq 0x0101 h (raise (hueBlk h) 1 (inc r.2 (hueCplLostCount h))))

/-- An announcement ends: its ENDED records are written and its slot, player and chime are freed (R261, R265, R267). -/
def annEnd (fr : Word) (a : Nat) (x : Ann) (d : Dev) : Dev :=
  let d1 := cplRecord x.hue 3 x.reason x.tag.toNat x.handle.toNat fr d
  let d2 := logAt fr 0x1403 x.hue 0 [(8, x.handle.toNat), (2, x.reason)] x.tag.toNat d1
  let d3 := if decide (128 ≤ x.source) && decide (x.source < 192) then playerPut (x.source - 128) Player.idle d2
    else if decide (192 ≤ x.source) && decide (x.source < 208) then chimePut (x.source - 192) Chime.idle d2 else d2
  annPut a none d3

/-- An announcement that never became ACTIVE is freed with the record given (R261, R264, R265). -/
def annDropPending (fr : Word) (kind reason typ : Nat) (a : Nat) (x : Ann) (d : Dev) : Dev :=
  let d1 := cplRecord x.hue kind reason x.tag.toNat (if kind = 4 then 0 else x.handle.toNat) fr d
  let d2 := logAt fr typ x.hue 0 (if kind = 4 then [(2, reason)] else if kind = 3 then [(8, x.handle.toNat), (2, reason)]
    else [(8, x.handle.toNat)]) x.tag.toNat d1
  let d3 := if decide (128 ≤ x.source) && decide (x.source < 192) then playerPut (x.source - 128) Player.idle d2
    else if decide (192 ≤ x.source) && decide (x.source < 208) then chimePut (x.source - 192) Chime.idle d2 else d2
  annPut a none d3

/-- A command is refused: fault record, completion record, log record, count and event (R254, R263, R265). -/
def cmdRefuse (h reason tag : Nat) (d : Dev) : Dev :=
  let fr := workFrame d
  let d1 := cplRecord h 4 reason tag 0 fr (hueFault h (0x20 + reason) d)
  raise .seq 0 (inc (logAt fr 0x1404 h 0 [(2, reason)] tag d1) seqRefusedCount)

/-! ### Commands (R262 to R264) -/

/-- DEFAULT_FADE in force: a reserved value acts as the reset value 2 (R19, R272). -/
def defaultFade (d : Dev) : Nat := if rd d seqDefaultFade ≤ 50 then rd d seqDefaultFade else 2

/-- READY_TIMEOUT in force: 0 acts as the reset value 2,000 (R19, R272). -/
def readyTimeout (d : Dev) : Nat := if rd d seqReadyTimeout = 0 then 2000 else rd d seqReadyTimeout

/-- A fade of a command in ms: 63 stands for DEFAULT_FADE (R262). -/
def fadeMs (d : Dev) (v : Nat) : Nat := if v = 63 then defaultFade d else v

/-- A fade field that holds a reserved value (R262). -/
def fadeBad (v : Nat) : Bool := decide (50 < v) && v != 63

/-- Word `i` of a command entry. -/
def cmdWord (w : List Word) (i : Nat) : Nat := (nth w i 0).toNat

/-- The reserved bits of a command entry (R262). -/
def cmdRsv (w : List Word) : Bool :=
  bits (cmdWord w 0) 31 8 != 0 || bits (cmdWord w 1) 63 34 != 0 || bits (cmdWord w 2) 63 48 != 0 || cmdWord w 7 != 0

/-- The zone mask of a command entry. -/
def cmdZones (w : List Word) : Nat := cmdWord w 3 + cmdWord w 4 * 2 ^ 64 + cmdWord w 5 * 2 ^ 128

/-- ZONE_PERM of a hue as one mask (R254). -/
def zonePerm (d : Dev) (h : Nat) : Nat := ((List.range 6).map (fun j => rd d (hueZonePerm h j) * 2 ^ (32 * j))).sum

/-- The bytes of an item's samples, as SAMPLES and FORMAT give them; none where FORMAT is neither of the two, or fewer are
stored (R429; DEDUCED, log entry 165). -/
def itemBody (b : List Byte) : Option (List Byte) :=
  let fmt := ofLe ((b.drop 8).take 4)
  let n := ofLe ((b.drop 4).take 4) * (if fmt = 0 then 3 else 4)
  if fmt ≤ 1 ∧ 32 + n ≤ b.length then some ((b.drop 32).take n) else none

/-- The item exists, at the processing rate and with a correct CRC of its samples (R263, R429). -/
def itemUsable (d : Dev) (item : Nat) : Bool :=
  match tget (fun _ => none) d.stor.items item with
  | none => false
  | some b => ofLe (b.take 4) == b2n (is48 d) && (itemBody b).any (fun s => ofLe ((b.drop 12).take 4) == crc32c s)

/-- The lowest free slot (R263). -/
def freeSlot (d : Dev) : Option Nat := (List.range 256).find? (fun a => (annGet d a).isNone)

/-- The lowest free player. -/
def freePlayer (d : Dev) : Option Nat := (List.range 64).find? (fun p => (playerGet d p).slot.isNone)

/-- The reason a START is refused, 0 for none, in the order of R263. -/
def startReason (d : Dev) (h : Nat) (w : List Word) : Nat :=
  let src := bits (cmdWord w 1) 9 0
  let isMsg := (decide (128 ≤ src) && decide (src < 192)) || src == 0x3FD
  let isChime := decide (192 ≤ src) && decide (src < 208)
  let item := bits (cmdWord w 2) 31 0
  if cmdRsv w || !(decide (src < 208) || src == 0x3FD) || fadeBad (bits (cmdWord w 1) 21 16) ||
      fadeBad (bits (cmdWord w 1) 27 22) || fadeBad (bits (cmdWord w 1) 33 28) || (isChime && decide (16 ≤ item)) then 5
  else if cmdZones w = 0 ∨ Nat.land (cmdZones w) (zonePerm d h) ≠ cmdZones w then 1
  else if rd d (huePrioMax h) < bits (cmdWord w 1) 14 10 then 2
  else if isMsg && !itemUsable d item then 6
  else if (decide (128 ≤ src) && decide (src < 192) && (playerGet d (src - 128)).slot.isSome) ||
      (isChime && (chimeGet d (src - 192)).slot.isSome) then 4
  else if src == 0x3FD && (freePlayer d).isNone then 7
  else if (freeSlot d).isNone then 3
  else 0

/-- A START that passes its checks takes the lowest free slot (R260, R261, R263). -/
def startAccept (h : Nat) (w : List Word) (d : Dev) : Dev :=
  match freeSlot d with
  | none => d
  | some a =>
    let src0 := bits (cmdWord w 1) 9 0
    let src := if src0 = 0x3FD then 128 + (freePlayer d).getD 0 else src0
    let fr := workFrame d
    let tag := bits (cmdWord w 0) 63 32
    let reps := bits (cmdWord w 2) 47 32
    let x : Ann := {
      st := 1, handle := BitVec.ofNat 64 (a + h * 2 ^ 12 + fr.toNat % 2 ^ 48 * 2 ^ 16), hue := h
      prio := bits (cmdWord w 1) 14 10, source := src, tag := BitVec.ofNat 32 tag, zones := cmdZones w
      fadeIn := fadeMs d (bits (cmdWord w 1) 21 16), fadeOut := fadeMs d (bits (cmdWord w 1) 27 22)
      preempt := fadeMs d (bits (cmdWord w 1) 33 28), item := BitVec.ofNat 32 (bits (cmdWord w 2) 31 0)
      repeats := reps, order := d.seq.nextOrder, age := 0, reason := 0, started := false }
    let d1 := annPut a (some x) { d with seq := { d.seq with nextOrder := d.seq.nextOrder + 1 } }
    let d2 := if decide (128 ≤ src) && decide (src < 192) then
        playerPut (src - 128) { Player.idle with slot := some a, item := x.item, left := reps } d1
      else if decide (192 ≤ src) && decide (src < 208) then
        chimePut (src - 192) { Chime.idle with slot := some a, pattern := x.item.toNat, left := reps } d1
      else d1
    let d3 := cplRecord h 1 0 tag x.handle.toNat fr d2
    logAt fr 0x1401 h 0 [(8, x.handle.toNat), (24, x.zones)] (src + x.prio * 2 ^ 10 + tag * 2 ^ 32) (inc d3 seqCmdCount)

/-- A START of hue `h` (R263). -/
def doSeqStart (h : Nat) (w : List Word) (d : Dev) : Dev :=
  let r := startReason d h w
  if r = 0 then startAccept h w d
  else
    let tag := bits (cmdWord w 0) 63 32
    let src := bits (cmdWord w 1) 9 0
    let d1 := cmdRefuse h r tag d
    if r = 6 then
      raise .seq 2 (logAt (workFrame d) 0x1407 h 1 [(4, bits (cmdWord w 2) 31 0),
        (2, if decide (128 ≤ src) && decide (src < 192) then src - 128 else 0xFFFF)] tag d1)
    else d1

/-- A command with a reserved OPCODE (R263). -/
def doSeqReservedOpcode (h : Nat) (w : List Word) (d : Dev) : Dev := cmdRefuse h 5 (bits (cmdWord w 0) 63 32) d

/-- An announcement is cancelled: PENDING ends before start, ACTIVE is released, RELEASING stays (R264). -/
def annCancel (a : Nat) (x : Ann) (d : Dev) : Dev :=
  if x.st = 1 then annDropPending (workFrame d) 5 0 0x1405 a x d
  else if x.st = 2 then annPut a (some { x with st := 3, reason := 0 }) d
  else d

/-- A CANCEL of hue `h` (R263, R264). -/
def doSeqCancel (h : Nat) (w : List Word) (d : Dev) : Dev :=
  let tag := bits (cmdWord w 0) 63 32
  if cmdRsv w then cmdRefuse h 5 tag d
  else if bit (cmdWord w 1) 15 then
    inc (forEach ((annList d).filter (fun e => e.2.hue == h && e.2.tag.toNat == tag)) (fun e => annCancel e.1 e.2) d) seqCmdCount
  else
    match (annList d).find? (fun e => e.2.handle.toNat == cmdWord w 6 && (h == 0 || e.2.hue == h)) with
    | some e => inc (annCancel e.1 e.2 d) seqCmdCount
    | none => cmdRefuse h 8 tag d

/-- A CANCEL_ALL of hue `h` (R263, R264). -/
def doSeqCancelAll (h : Nat) (w : List Word) (d : Dev) : Dev :=
  if cmdRsv w then cmdRefuse h 5 (bits (cmdWord w 0) 63 32) d
  else inc (forEach ((annList d).filter (fun e => e.2.hue == h)) (fun e => annCancel e.1 e.2) d) seqCmdCount

/-- The entries of a hue's command ring, all removed; or its fault (R262). -/
def cmdRead (h : Nat) (d : Dev) : List (List Word) × Dev :=
  if !flag d (hueCmdValid h) then
    ([], { d with seq := { d.seq with cmdBad := tset (fun _ => false) d.seq.cmdBad h false } })
  else if !cmdRingOk d h then
    let was := tget (fun _ => false) d.seq.cmdBad h
    let d1 := { d with seq := { d.seq with cmdBad := tset (fun _ => false) d.seq.cmdBad h true } }
    ([], doIf (!was) (hueFault h 0x30) d1)
  else
    let d1 := { d with seq := { d.seq with cmdBad := tset (fun _ => false) d.seq.cmdBad h false } }
    if !bobRunning d then ([], d1)
    else
      let q := rd d (hueCmdQ h)
      let c := rdCtx d q
      let es := (List.range (occ c)).map (fun i =>
        (List.range 8).map (fun k => BitVec.ofNat 64 (rdN d (entryAddr c (c.head + i) + 8 * k) 8)))
      if es.isEmpty then ([], d1) else (es, bobNotify q (wrCtx q { c with head := c.tail } (touchCtx q d1)))

/-- The commands of every hue, hues ascending, each ring in order (R263). -/
def cmdReadAll (d : Dev) : List (Nat × List Word) × Dev :=
  (List.range 16).foldl (fun acc h =>
    let r := cmdRead h acc.2
    (acc.1 ++ r.1.map (fun w => (h, w)), r.2)) ([], d)

/-- The STARTs and reserved opcodes of a commit point, then the CANCELs (R263 steps 1 and 2). -/
def seqCommands (d0 : Dev) : Dev :=
  let r := cmdReadAll d0
  let op (w : List Word) : Nat := cmdWord w 0 % 256
  let d1 := forEach r.1 (fun e d => if op e.2 = 1 then doSeqStart e.1 e.2 d
    else if op e.2 = 2 ∨ op e.2 = 3 then d else doSeqReservedOpcode e.1 e.2 d) r.2
  forEach r.1 (fun e d => if op e.2 = 2 then doSeqCancel e.1 e.2 d
    else if op e.2 = 3 then doSeqCancelAll e.1 e.2 d else d) d1

/-- Readiness: PENDING announcements that are ready become ACTIVE, the others age (R261, R263 step 3). -/
def seqReadiness (d : Dev) : Dev :=
  forEach (annList d) (fun e d =>
    let x := e.2
    if x.st ≠ 1 then d
    else
      let isMsg := decide (128 ≤ x.source) && decide (x.source < 192)
      if !isMsg || (playerGet d (x.source - 128)).ready then annPut e.1 (some { x with st := 2 }) d
      else annPut e.1 (some { x with age := x.age + 1 }) d) d

/-- READY_TIMEOUT: a PENDING announcement not ready after READY_TIMEOUT frames is refused; the commit point of its START is
the first at which it was found not ready (R261, R263). -/
def doReadyTimeout (a : Nat) (d : Dev) : Dev :=
  match annGet d a with
  | some x =>
    if x.st = 1 && decide (readyTimeout d < x.age) && !(playerGet d (x.source - 128)).ready then
      let fr := workFrame d
      let d1 := annDropPending fr 4 6 0x1404 a x (hueFault x.hue 0x26 d)
      let d2 := logAt fr 0x1407 x.hue 1 [(4, x.item.toNat), (2, x.source - 128)] x.tag.toNat d1
      raise .seq 0 (raise .seq 2 (inc d2 seqRefusedCount))
    else d
  | none => d

/-! ### Zone arbitration (R266, R267) -/

/-- `x` wins over `y`: higher priority, or the earlier START (R266). -/
def annBeats (x y : Ann) : Bool := decide (y.prio < x.prio) || (x.prio == y.prio && decide (x.order < y.order))

/-- The winner of zone `z` among the ACTIVE announcements (R266). -/
def winner (l : List (Nat × Ann)) (z : Nat) : Option (Nat × Ann) :=
  l.foldl (fun best e =>
    if e.2.st = 2 && bit e.2.zones z then
      match best with
      | none => some e
      | some b => if annBeats e.2 b.2 then some e else best
    else best) none

/-- The gain of a zone at its step (R266). -/
def zoneGain (s : Zone) : Nat :=
  if s.f = 0 then s.gt
  else ((s.g0 : Int) + (((s.gt : Int) - (s.g0 : Int)) * (s.j : Int)).fdiv (s.f : Int)).toNat

/-- The length of a fade-out in frames (R267, R425). -/
def exitFrames (holder : Option Ann) (w : Option (Nat × Ann)) : Nat :=
  match holder with
  | none => 0
  | some x =>
    if x.st = 2 then 8 * (match w with | some b => b.2.preempt | none => 0)
    else match x.reason with
      | 0 => 8 * x.fadeOut
      | 1 => 0
      | _ => 160

/-- The route word of a zone (R71). -/
def routeWord (x : Option (Nat × Ann)) (g0 g1 : Nat) : Word :=
  match x with
  | none => BitVec.ofNat 64 0x3FF
  | some e => BitVec.ofNat 64 (e.2.source + e.2.prio * 2 ^ 10 + b2n (decide (24 ≤ e.2.prio)) * 2 ^ 15 +
      e.2.handle.toNat % 2 ^ 16 * 2 ^ 16 + g0 * 2 ^ 32 + g1 * 2 ^ 48)

/-- One zone's step for a frame: its next state and its route word (R266). -/
def zoneStep (l : List (Nat × Ann)) (z : Nat) (s : Zone) : Zone × Word :=
  let w := winner l z
  let wi := w.map (fun e => e.1)
  let ann (a : Option Nat) : Option Ann := a.bind (fun i => (l.find? (fun e => e.1 == i)).map (fun e => e.2))
  let fin := match w with | some e => 8 * e.2.fadeIn | none => 0
  let s1 :=
    if s.holder.isSome && s.gt == 0x8000 && s.holder != wi then
      { s with g0 := zoneGain s, gt := 0, f := exitFrames (ann s.holder) w, j := 0 }
    else if s.holder.isSome && s.gt == 0 && s.holder == wi then
      { s with g0 := zoneGain s, gt := 0x8000, f := fin, j := 0 }
    else s
  let s2 := if s1.holder.isSome && s1.gt == 0 && s1.f == 0 then { s1 with holder := none } else s1
  let s3 := if s2.holder.isNone && wi.isSome then
      { s2 with holder := wi, g0 := 0, gt := 0x8000, f := fin, j := 0 } else s2
  let g0 := zoneGain s3
  let s4 := if s3.j < s3.f then { s3 with j := s3.j + 1 } else s3
  let g1 := zoneGain s4
  let here := s4.holder.bind (fun i => l.find? (fun e => e.1 == i))
  let rw := if s4.holder.isSome then routeWord here g0 g1 else routeWord none 0 0
  let s5 := { s4 with gEnd := if s4.holder.isSome then g1 else 0 }
  (if s5.holder.isSome && s5.gt == 0 && g1 == 0 then { s5 with holder := none } else s5, rw)

/-- The zones announcement slot `a` holds, as a mask. -/
def zonesHeld (d : Dev) (a : Nat) : Nat :=
  ((d.seq.zones.filter (fun e => e.2.holder == some a)).map (fun e => 2 ^ e.1)).sum

/-- Route word of zone `z` written (R71). -/
def putRoute (z : Nat) (w : Word) (d : Dev) : Dev :=
  { d with cht := { d.cht with routes := tset (fun _ => 0x3FF) d.cht.routes z w } }

/-- Arbitration of every zone for the frame, its records, and the announcements that end (R261, R265, R266). -/
def seqArbitrate (d : Dev) : Dev :=
  let l := annList d
  let fr := workFrame d
  let before := l.map (fun e => (e.1, zonesHeld d e.1))
  let d1 := forN 192 (fun z d =>
    let r := zoneStep l z (zoneGet d z)
    putRoute z r.2 (zonePut z r.1 d)) d
  let d2 := forEach l (fun e d =>
    let now := zonesHeld d e.1
    let was := ((before.find? (fun b => b.1 == e.1)).map (fun b => b.2)).getD 0
    let d3 := if !e.2.started && now != 0 then
        annPut e.1 (some { e.2 with started := true })
          (logAt fr 0x1402 e.2.hue 0 [(8, e.2.handle.toNat)] e.2.tag.toNat
            (cplRecord e.2.hue 2 0 e.2.tag.toNat e.2.handle.toNat fr d))
      else d
    doIf (now != was) (logAt fr 0x1406 e.2.hue 0 [(8, e.2.handle.toNat), (24, now)] 0) d3) d1
  forEach (annList d2) (fun e d => if e.2.st = 3 && zonesHeld d e.1 == 0 then annEnd fr e.1 e.2 d else d) d2

/-- The sequencer's whole work at a commit point, unless it is stopped (R263, R271). -/
def seqTick (d : Dev) : Dev :=
  if flag d (hdrActive .seq) then
    let d0 := if d.seq.stopped then { d with seq := { d.seq with stopped := false, zones := [] } } else d
    seqArbitrate (seqReadiness (seqCommands d0))
  else
    { d with seq := { d.seq with stopped := true }, cht := { d.cht with routes := [] } }

/-! ### Players and chimes (R269, R270) -/

/-- Sample `i` of an item in Q1.31 (R429). -/
def itemSample (b : List Byte) (i : Nat) : W32 :=
  if ofLe ((b.drop 8).take 4) = 0 then BitVec.ofNat 32 (ofLe ((b.drop (32 + 3 * i)).take 3) * 256)
  else BitVec.ofNat 32 (ofLe ((b.drop (32 + 4 * i)).take 4))

/-- One sample of a player: the next state and the sample (R269). -/
def playerStep (b : List Byte) (reps : Nat) (p : Player) : Player × W32 :=
  let n := ofLe ((b.drop 4).take 4)
  if p.finished || p.dead || n = 0 then ({ p with finished := p.finished || n == 0 }, 0)
  else
    let s := itemSample b p.pos
    if p.pos + 1 < n then ({ p with pos := p.pos + 1 }, s)
    else if reps = 0 then ({ p with pos := 0 }, s)
    else if p.left ≤ 1 then ({ p with pos := p.pos + 1, left := 0, finished := true }, s)
    else ({ p with pos := 0, left := p.left - 1 }, s)

/-- `n` samples of a generator of samples. -/
def runSamples {α : Type} (f : α → α × W32) : Nat → α → α × List W32
  | 0, x => (x, [])
  | n + 1, x => let r := f x; let t := runSamples f n r.1; (t.1, r.2 :: t.2)

/-- A quotient that the manual does not say how to round: one of its two neighbours, by a constant of the part (R18; log
entry 45). -/
def openDiv (n : Int) (m : Nat) : Int :=
  n / (m : Int) + (if n % (m : Int) ≠ 0 && Config.roundsUp n m then 1 else 0)

/-- The sine of a phase, from the table of 4,096 entries with linear interpolation (R270). -/
def chimeSine (phase : BitVec 32) : Int :=
  let i := phase.toNat / 2 ^ 20
  let a := (Config.sineTable i).toInt
  let b := (Config.sineTable ((i + 1) % 4096)).toInt
  a + openDiv ((b - a) * ((phase.toNat % 2 ^ 20 : Nat) : Int)) (2 ^ 20)

/-- A chime sample: the sine at LEVEL, 0x8000 for 1.0, in its linear fall with `rest` of `decay` samples to play (R270). -/
def chimeSample (phase : BitVec 32) (level rest decay : Nat) : W32 :=
  let s := chimeSine phase * (level : Int)
  BitVec.ofInt 32 (openDiv (if rest < decay then s * (rest : Int) else s) (if rest < decay then 0x8000 * decay else 0x8000))

/-- The phase step of a note of `freq` Hz (R270). -/
def chimeStep (freq rate : Nat) : BitVec 32 := BitVec.ofInt 32 (openDiv ((freq * 2 ^ 32 : Nat) : Int) rate)

/-- One sample of a chime generator (R270); a reserved LEVEL acts as its reset value 0 (R19); `note k i` gives the words of note `i` of pattern `k`. -/
def chimeStepOne (d : Dev) (reps : Nat) (c : Chime) : Chime × W32 :=
  let rate := if is48 d then 48000 else 96000
  let dur (i : Nat) : Nat := rd d (seqNoteDurMs c.pattern i) * (rate / 1000)
  let l := rd d (seqNoteLevel c.pattern c.note)
  let level := if 0x8000 < l then 0 else l
  let decay := rd d (seqNoteDecayMs c.pattern c.note) * (rate / 1000)
  let n := dur c.note
  if c.finished || n = 0 || 8 ≤ c.note then ({ c with finished := true }, 0)
  else
    let rest := n - c.pos
    let s := chimeSample c.phase level rest decay
    let ph := c.phase + chimeStep (rd d (seqNoteFreq c.pattern c.note)) rate
    if c.pos + 1 < n then ({ c with pos := c.pos + 1, phase := ph }, s)
    else if c.note + 1 < 8 && dur (c.note + 1) != 0 then ({ c with note := c.note + 1, pos := 0, phase := 0 }, s)
    else if reps = 0 then ({ c with note := 0, pos := 0, phase := 0 }, s)
    else if c.left ≤ 1 then ({ c with left := 0, finished := true }, s)
    else ({ c with note := 0, pos := 0, phase := 0, left := c.left - 1 }, s)

/-- An ACTIVE announcement is released as FINISHED (R269). -/
def annFinish (a : Nat) (d : Dev) : Dev :=
  match annGet d a with
  | some x => if x.st = 2 then annPut a (some { x with st := 3, reason := 1 }) d else d
  | none => d

/-- Samples produced for a source. -/
def putSamples (src : Nat) (l : List W32) (d : Dev) : Dev :=
  { d with seq := { d.seq with samples := tset (fun _ => []) d.seq.samples src l } }

/-- PLAYER_ADVANCE: players and chimes of ACTIVE announcements, and of RELEASING ones that fade out, produce the next frame's samples; the last
sample of the last play releases the announcement (R269, R270). It happens once in a period, in cycles 8,192 to 108,031
(R26). -/
def doPlayerAdvance (d0 : Dev) : Dev :=
  let d := atCycle (max 8192 d0.clk.cycle) { d0 with seq := { d0.seq with advanced := some d0.clk.frame } }
  if !flag d0 (hdrActive .seq) || decide (108032 ≤ d0.clk.cycle) || d0.seq.advanced == some d0.clk.frame then d0
  else forEach (annList d) (fun e d =>
    let x := e.2
    if x.st = 1 then d
    else if decide (128 ≤ x.source) && decide (x.source < 192) then
      let p := x.source - 128
      let b := (tget (fun _ => none) d.stor.items x.item.toNat).getD []
      let r := runSamples (playerStep b x.repeats) (nSamp d) (playerGet d p)
      doIf r.1.finished (annFinish e.1) (putSamples x.source r.2 (playerPut p r.1 d))
    else if decide (192 ≤ x.source) && decide (x.source < 208) then
      let c := x.source - 192
      let r := runSamples (chimeStepOne d x.repeats) (nSamp d) (chimeGet d c)
      doIf r.1.finished (annFinish e.1) (putSamples x.source r.2 (chimePut c r.1 d))
    else d) d

/-- PLAYER_PREFETCH_READ: a message-store read for player `p`, from copy 0 or else copy 1; a failure in both
stops a player that plays (R261, R269, R429). One read is taken to bring 8 frames (DESIGN CHOICE, log entry 12). -/
def doPlayerPrefetchRead (p : Nat) (ok0 ok1 : Bool) (d : Dev) : Dev :=
  let x := playerGet d p
  match x.slot with
  | none => d
  | some a =>
    let d1 := doIf (!ok0) (fun d => raise .stor 1 (inc d storMirrorErrCount)) d
    if ok0 || ok1 then playerPut p { x with buffered := x.buffered + 1, ready := true } d1
    else
      let d2 := inc (inc d1 storMirrorErrCount) storReadErrCount
      if (annGet d a).any (fun y => y.st != 1) then
        annFinish a (captureErr .seq 0x0100 p (playerPut p { x with dead := true } d2))
      else d2

/-! ### Hue reset (R257) -/

/-- A committed hue reset applies (R257). -/
def hueResetApply (h : Nat) (d : Dev) : Dev :=
  let mine := (annList d).filter (fun e => e.2.hue == h)
  let fr := workFrame d
  let d1 := forEach mine (fun e d =>
    if e.2.st = 1 then annDropPending fr 3 2 0x1403 e.1 e.2 d
    else if e.2.st = 2 then annPut e.1 (some { e.2 with st := 3, reason := 2 }) d
    else d) d
  let qs := (ctxListed d1).filter (fun q => (rdCtx d1 q).owner == h)
  let gone := (qs.map (fun q => occ (rdCtx d1 q))).sum
  let d2 := forEach qs (fun q d =>
    let c := rdCtx d q
    bobNotify q (wrCtx q { c with head := c.tail, en := false } d)) d1
  let d3 := wr64 (wr (wr d2 (hueFaultCode h) 0) (hueFaultCount h) 0) (hueFaultFrameLo h) (hueFaultFrameHi h) 0
  let d4 := { d3 with bob := { d3.bob with
    staged := d3.bob.staged.filter (fun e => e.1 / 8192 != h) } }
  let d5 := ringClear d4
  let live := (mine.filter (fun e => e.2.st != 3)).length
  logAt fr 0x0301 h 1 [(4, gone), (4, live)] 0 (wr d5 (hueResetting h) 1)

/-- HUE_RESET_DONE: the last of the hue's announcements has faded (R257). -/
def doHueResetDone (h : Nat) (d : Dev) : Dev :=
  if flag d (hueResetting h) && !(annList d).any (fun e => e.2.hue == h) then
    raise (hueBlk h) 2 (wr d (hueResetting h) 0)
  else d

/-! ### SEQ.CTRL.SOFT_RST (R271) -/

/-- The sequencer's work is dropped without a fade; what each announcement was is kept for its records. The route words of the
frame in progress stay (R271). -/
def seqDropAll (d : Dev) : Dev :=
  { d with
    seq := { d.seq with anns := [], zones := [], players := [], chimes := [], samples := [],
                        resetAnns := d.seq.resetAnns ++ annList d } }

/-- The records of the announcements a sequencer reset ended, in slot order (R271). -/
def seqResetRecords (d : Dev) : Dev :=
  forEach d.seq.resetAnns (fun e d =>
    logAt (workFrame d) 0x1403 e.2.hue 0 [(8, e.2.handle.toNat), (2, 4)] e.2.tag.toNat
      (cplRecord e.2.hue 3 4 e.2.tag.toNat e.2.handle.toNat (workFrame d) d))
    { d with seq := { d.seq with resetAnns := [] } }

end Sys2Proof.Machine
end

