-- ==== Sys2Proof/Machine/Cht.lean ====
section
/-! DEFINITION. The channel table engine (R69 to R94): entries, the channel cache, staging slots, the frame
schedule and the frame descriptors. -/

namespace Sys2Proof.Machine

/-- Address of entry `x` (R69). -/
def entryAt (d : Dev) (x : Nat) : Nat := chtBase d + 128 * x

/-- Word `o` (a byte offset) of an entry held as a number (R70). -/
def entWord (e o : Nat) : Nat := e / 2 ^ (8 * o) % 2 ^ 64

/-- The SRAM copy of entry `x`, as a number (R69). -/
def entryRaw (d : Dev) (x : Nat) : Nat := rdN d (entryAt d x) 128

/-- The TYPE of an index range: 1 output, 2 input, 3 sense (R69, R70). -/
def rangeType (x : Nat) : Nat := if x < 192 then 1 else if x < 320 then 2 else 3

/-- TYPE of an entry. -/
def entType (e : Nat) : Nat := bits (entWord e 0) 3 0
/-- EN of an entry. -/
def entEn (e : Nat) : Bool := bit (entWord e 0) 4
/-- SKEIN of an entry. -/
def entSkein (e : Nat) : Nat := bits (entWord e 0) 13 8
/-- GEN_HEAD of an entry. -/
def entGenHead (e : Nat) : Nat := bits (entWord e 0) 31 16
/-- GEN_TAIL of an entry. -/
def entGenTail (e : Nat) : Nat := bits (entWord e 0x78) 15 0
/-- NET_STREAM of an entry. -/
def entNetStream (e : Nat) : Nat := bits (entWord e 8) 7 0
/-- NET_SLOT of an entry. -/
def entNetSlot (e : Nat) : Nat := bits (entWord e 8) 13 8
/-- NET_VALID of an entry. -/
def entNetValid (e : Nat) : Bool := bit (entWord e 8) 14
/-- TDM_PORT of an entry. -/
def entTdmPort (e : Nat) : Nat := bits (entWord e 8) 19 16
/-- TDM_SLOT of an entry. -/
def entTdmSlot (e : Nat) : Nat := bits (entWord e 8) 23 20
/-- TDM_VALID of an entry. -/
def entTdmValid (e : Nat) : Bool := bit (entWord e 8) 24
/-- FORMAT of an entry. -/
def entFormat (e : Nat) : Nat := bits (entWord e 8) 35 32
/-- ZONE of an entry. -/
def entZone (e : Nat) : Nat := bits (entWord e 0x18) 7 0
/-- EDIT_HUE of an entry. -/
def entEditHue (e : Nat) : Nat := bits (entWord e 0x18) 35 32
/-- SUP_EN of an entry. -/
def entSupEn (e : Nat) : Bool := bit (entWord e 0x28) 0
/-- NIGHT_EN of an entry. -/
def entNightEn (e : Nat) : Bool := bit (entWord e 0x28) 1
/-- TAG_EN of an entry. -/
def entTagEn (e : Nat) : Bool := bit (entWord e 0x28) 2
/-- ACC_SEL of an entry. -/
def entAccSel (e : Nat) : Nat := bits (entWord e 0x28) 11 8
/-- MARGIN of an entry. -/
def entMargin (e : Nat) : Nat := bits (entWord e 0x28) 23 16
/-- WEAR_PTR of an entry. -/
def entWearPtr (e : Nat) : Nat := bits (entWord e 0x30) 39 0

/-- Whether FORMAT matches the payload of the stream the entry is bound to: L24 for 0, L32 for 1 and packed
sense; FORMAT 2, the TDM's own, names no payload and is accepted beside any (R72, R282; DESIGN CHOICE, log entry 127). -/
def formatFits (d : Dev) (e : Nat) : Bool :=
  if !entNetValid e then true
  else
    let fmt := if entType e = 1 then rd d (txFmt (entNetStream e)) else rd d (rxFmt (entNetStream e))
    if entFormat e = 0 then fmt == 0 else if entFormat e = 2 then true else fmt == 1

/-- The software fields of entry `x` are valid against their encodings and ranges (R72). -/
def entryValid (d : Dev) (x e : Nat) : Bool :=
  let out := rangeType x == 1
  let w0 := entWord e 0
  let w8 := entWord e 8
  let w28 := entWord e 0x28
  entType e == rangeType x &&
  bits w0 7 5 == 0 && bits w0 15 14 == 0 && bits w0 63 32 == 0 &&
  bits w8 15 15 == 0 && bits w8 31 25 == 0 && bits w8 63 36 == 0 &&
  (!entNetValid e || decide (entNetStream e < if out then 96 else 128)) &&
  (!entTdmValid e || (decide (entTdmPort e < 12) && rangeType x != 2)) &&
  decide (entFormat e ≤ 3) && formatFits d e &&
  bits (entWord e 0x10) 63 53 == 0 && decide (bits (entWord e 0x10) 52 32 ≤ if is48 d then 96000 else 192000) &&
  (if out then decide (entZone e < 192) || entZone e == 0xFF else entZone e == 0xFF) &&
  bits (entWord e 0x18) 31 8 == 0 && bits (entWord e 0x18) 63 36 == 0 &&
  (!out || (bits w28 7 3 == 0 && bits w28 15 12 == 0 && bits w28 63 24 == 0 &&
    (!entSupEn e || (decide (12 ≤ entMargin e) && decide (entMargin e ≤ 60) && decide (entAccSel e ≤ 8))) &&
    bits (entWord e 0x30) 63 40 == 0 && entWearPtr e % 4096 == 0)) &&
  entWord e 0x70 == 0 && bits (entWord e 0x78) 63 16 == 0

/-- Entry `x` as fetched: whether it is delivered disabled, and whether it is a BAD_ENTRY (R72). -/
def fetchJudge (d : Dev) (x e : Nat) : Bool × Bool :=
  if entType e = 0 then (true, false) else if entryValid d x e then (false, false) else (true, true)

/-! ### The channel cache (R74 to R79) -/

/-- The cached copy of entry `x`. -/
def cacheGet (d : Dev) (x : Nat) : Option CacheEnt := d.cht.cache.find? (fun c => c.index == x)

/-- The cached copy of an entry replaced. -/
def cacheSet (c : CacheEnt) (d : Dev) : Dev :=
  { d with cht := { d.cht with cache := d.cht.cache.map (fun o => if o.index = c.index then c else o) } }

/-- The CHT serves its cache: running, or finishing the frame period (R93). -/
def chtServing (d : Dev) : Bool := !d.cht.stopped && (flag d (hdrActive .cht) || flag d (hdrQuiescing .cht))

/-- A fetch that was not torn becomes the copy; its first fault is captured (R72, R75). -/
def fetchInto (x : Nat) (d : Dev) : Dev × CacheEnt :=
  let e := entryRaw d x
  let j := fetchJudge d x e
  let old := cacheGet d x
  let c : CacheEnt := { index := x, data := e, off := j.1, torn := false, pend := false, tried := false, filled := d.clk.frame,
                        lastFrame := (old.map (fun o => o.lastFrame)).getD 0, order := (old.map (fun o => o.order)).getD 0 }
  (if j.2 then captureErr .cht 0x0100 x d else d, c)

/-- A torn fetch is counted (R78, R94). -/
def countTorn (d : Dev) : Dev := raise .cht 3 (inc d chtTornCount)

/-- The SRAM copy of entry `x` is torn (R78). -/
def isTorn (d : Dev) (x : Nat) : Bool := entGenHead (entryRaw d x) != entGenTail (entryRaw d x)

/-- One refetch or refresh of a cached entry: a torn one keeps the old copy (R76 to R78). -/
def refetch (x : Nat) (d : Dev) : Dev :=
  if isTorn d x then
    match cacheGet d x with
    | some c => cacheSet { c with tried := true } (countTorn d)
    | none => countTorn d
  else let r := fetchInto x d; cacheSet r.2 r.1

/-- The refetch window: copies with a pending invalidation, a torn copy from the frame period after its delivery on, and
the entry whose refresh is due (R76 to R79). -/
def chtRefetch (d : Dev) : Dev :=
  let n := (workFrame d).toNat
  let due := (d.cht.cache.filter (fun c => (c.pend && !(c.torn && c.filled == d.clk.frame)) || (n % 2 == 0 && c.index == n / 2 % 512))).map (fun c => c.index)
  forEach due refetch d

/-- The entry to replace at a miss: the least recently read, first among those not read in this frame (R76). -/
def cacheVictim (d : Dev) : Option Nat :=
  let pick (l : List CacheEnt) : Option CacheEnt :=
    l.foldl (fun b c => match b with | none => some c | some x => if c.order < x.order then some c else b) none
  match pick (d.cht.cache.filter (fun c => c.lastFrame != d.clk.frame)) with
  | some c => some c.index
  | none => (pick d.cht.cache).map (fun c => c.index)

/-- A copy put into the cache, replacing another when all 128 places are taken (R74, R76). -/
def cacheAdd (c : CacheEnt) (d : Dev) : Dev :=
  let base := if d.cht.cache.length < 128 then d.cht.cache
    else match cacheVictim d with
      | some v => d.cht.cache.filter (fun o => o.index != v)
      | none => d.cht.cache
  { d with cht := { d.cht with cache := base ++ [c] } }

/-- A read of entry `x` through the cache notes its use. -/
def cacheTouch (x : Nat) (d : Dev) : Dev :=
  let d1 := { d with cht := { d.cht with reads := d.cht.reads + 1 } }
  match cacheGet d x with
  | some c => cacheSet { c with lastFrame := d.clk.frame, order := d.cht.reads } d1
  | none => d1

/-- The copy of entry `x` was marked invalid at this period's cycle 0 and its refetch window has not opened: a read of it
is a miss, which fetches the entry for that read alone; the copy waits for its window (R26, R76, R79; DEDUCED, log entry
14). -/
def copyInvalid (d : Dev) (x : Nat) : Bool :=
  (cacheGet d x).any (fun c => c.pend && !c.tried) && decide (d.clk.cycle < 4096) && !isTorn d x

/-- A torn fetch delivered disabled after its retries: its copy stays, to be refetched from the next period on (R78). -/
def tornCopy (x : Nat) (d : Dev) : Dev :=
  cacheTouch x (cacheAdd { index := x, data := entryRaw d x, off := true, torn := true, pend := true, tried := true,
                           filled := d.clk.frame, lastFrame := d.clk.frame, order := d.cht.reads } d)

/-- A reader of the cache that finds no copy fetches one; a torn miss of a block reader is delivered disabled
after its retries (R75, R76, R78). -/
def cacheEnsure (x : Nat) (d : Dev) : Dev :=
  if copyInvalid d x then (fetchInto x (cacheTouch x (inc d chtMissCount))).1
  else if (cacheGet d x).isSome then cacheTouch x (inc d chtHitCount)
  else
    let d1 := inc d chtMissCount
    if isTorn d1 x then tornCopy x (logEv 0x1302 0 1 [(2, x)] 0 (incN (raise .cht 3 d1) chtTornCount 65))
    else
      let r := fetchInto x d1
      cacheTouch x (cacheAdd r.2 r.1)

/-- The ROUTE a reader of the copy receives (R71); an entry of the output range with another TYPE is taken as an output
entry delivered with EN = 0 (DESIGN CHOICE, log entry 128). -/
def routeOf (d : Dev) (x e : Nat) (off : Bool) : Nat :=
  if entType e = 0 || rangeType x != 1 then 0
  else if off || entZone e == 0xFF then 0x3FF
  else (tget (fun _ => (0x3FF : Word)) d.cht.routes (entZone e)).toNat

/-- ACTIVE mask of pair `n` (R82). -/
def actMask (d : Dev) (n : Nat) : Nat := rd d (chtActMaskLo n) + rd d (chtActMaskHi n) * 2 ^ 32

/-- The pair that computes skein `s`, if any. -/
def ownerPair (d : Dev) (s : Nat) : Option Nat := (List.range 12).find? (fun n => bit (actMask d n) s)

/-- The pair that skein `s` moves to at the next frame (R70, R88). -/
def leaving (d : Dev) (s : Nat) : Bool :=
  match d.cht.armed with
  | none => false
  | some (f, bank) =>
    (f == d.clk.frame) &&
    (List.range 12).any (fun n => bit (actMask d n) s && !bit ((nth bank n (0, 0)).2.toNat) s)

/-- The hardware word at 0x38 (R70). -/
def hwWord (d : Dev) (x e : Nat) (torn : Bool) : Nat :=
  let o := ownerPair d (entSkein e)
  let conc := (tget (fun _ => ({ r := [], j := 0, now := false } : Conceal)) d.strm.conceal x).now
  o.getD 0 + b2n o.isSome * 2 ^ 4 + b2n (conc && decide (192 ≤ x)) * 2 ^ 5 + b2n (leaving d (entSkein e)) * 2 ^ 6 + b2n torn * 2 ^ 7

/-- The 128 bytes of entry `x` as the cache serves them: the hardware fields supplied, EN cleared where the copy
is delivered disabled (R70, R72, R78). -/
def served (d : Dev) (c : CacheEnt) : Nat :=
  let e := if c.off then putBits c.data 4 4 0 else c.data
  putBits (putBits e (8 * 0x27 + 7) (8 * 0x20) (routeOf d c.index c.data c.off)) (8 * 0x3F + 7) (8 * 0x38)
    (hwWord d c.index c.data c.torn)

/-- Entry `x` as STRM, SUP and the other blocks read it (R74): 0 while the CHT is stopped has the SRAM copy. -/
def entryRead (x : Nat) (d : Dev) : Nat × Dev :=
  if !chtServing d then (entryRaw d x, d)
  else
    let d1 := cacheEnsure x d
    if copyInvalid d x then (served d1 (fetchInto x d1).2, d1)
    else match cacheGet d1 x with
      | some c => (served d1 c, d1)
      | none => (entryRaw d1 x, d1)

/-- Entry `x` as it is served for the present frame, without changing the cache. -/
def entryNow (d : Dev) (x : Nat) : Nat := (entryRead x d).1

/-- An entry that is in service: EN as delivered (R73). -/
def inService (e : Nat) : Bool := entEn e && entType e != 0

/-- The retries pair `p` has made of a torn miss (R78). -/
def setTries (p n : Nat) (d : Dev) : Dev :=
  { d with cht := { d.cht with tornTries := tset (fun _ => 0) d.cht.tornTries p n } }

/-- A core read that missed and is torn: one retry (R78). `none` while it must be retried. -/
def coreMiss (p x : Nat) (d : Dev) : Bool × Dev :=
  if (cacheGet d x).isSome then (true, setTries p 0 d)
  else if !isTorn d x then
    let r := fetchInto x (inc d chtMissCount)
    (true, setTries p 0 (cacheTouch x (cacheAdd r.2 r.1)))
  else
    let n := tget (fun _ => 0) d.cht.tornTries p
    let d1 := countTorn (if n = 0 then inc d chtMissCount else d)
    if n < 64 then (false, setTries p (n + 1) d1)
    else (true, tornCopy x (logEv 0x1302 0 1 [(2, x)] 0 (setTries p 0 d1)))

/-- SUP reads the entries of every line, output and sense, through the cache: each once at a tick, when it reads the level
records, and as a night group begins (R74; DESIGN CHOICE, log entry 122). -/
def readLines (d : Dev) : Dev :=
  if chtServing d then forN 192 (fun k d => cacheEnsure (320 + k) (cacheEnsure k d)) d else d

/-- A committed invalidation of entry `x`: the cached copy is marked (R79). -/
def chtInvalApply (x : Nat) (d : Dev) : Dev :=
  match cacheGet d x with
  | some c => cacheSet { c with pend := true, tried := false } d
  | none => d

/-- PEND_COUNT: invalidations on their way to a commit point, forwarded to the owner or held, and copies that wait for their refetch (R94). -/
def pendCount (d : Dev) : Nat :=
  let held := ((d.commit.held.map Held.op ++ d.commit.forwarded.map (fun c => c.1)).flatMap (fun o => match o with
    | .inval x => [x.toNat] | .invalAll => List.range 512 | _ => [])).eraseDups
  let cached := (d.cht.cache.filter (fun c => c.pend)).map (fun c => c.index)
  (held ++ cached).eraseDups.length

/-! ### Staging slots (R80, R81) -/

/-- A committed staging edit of slot `h` is checked and applied, or refused (R81). -/
def stagingApply (h x : Nat) (data : List W32) (d : Dev) : Dev :=
  let cur := entryRaw d x
  let new0 := ofLe (data.flatMap (fun w => leBytes 4 w.toNat))
  let g := (entGenHead cur + 1) % 2 ^ 16
  let new1 := putBits (putBits new0 31 16 g) (8 * 0x78 + 15) (8 * 0x78) g
  -- the hardware words keep what the SRAM copy holds
  let new := putBits (putBits new1 (8 * 0x27 + 7) (8 * 0x20) (entWord cur 0x20)) (8 * 0x3F + 7) (8 * 0x38) (entWord cur 0x38)
  let r := if 512 ≤ x then 1
    else if h ≠ 0 ∧ (entEditHue cur ≠ h ∨ entEditHue new ≠ h) then 2
    else if entType new ≠ 0 && !entryValid d x new then 3 else 0
  let d1 := wr (wr d (slotBusy h) 0) (slotReason h) r
  if r ≠ 0 then raise .cht 4 (wr (wr d1 (slotRefused h) 1) (slotDone h) 0)
  else
    let d2 := chtInvalApply x (putOut .cht (entryAt d x) (leBytes 128 new) d1)
    wr64 (wr (wr d2 (slotDone h) 1) (slotRefused h) 0) (slotFrameLo h) (slotFrameHi h) (workFrame d).toNat

/-! ### The frame schedule (R82 to R93) -/

/-- The NEXT bank as it stands: PROG and mask of each pair (R82, R83). -/
def nextBank (d : Dev) : List (W32 × Word) :=
  (List.range 12).map (fun n => (rdw d (chtNextProg n).off,
    BitVec.ofNat 64 (rd d (chtNextMaskLo n) + rd d (chtNextMaskHi n) * 2 ^ 32)))

/-- A bank written to NEXT. -/
def putNext (bank : List (W32 × Word)) (d : Dev) : Dev :=
  forN 12 (fun n d =>
    let b := nth bank n (0, 0)
    wr64 (wr d (chtNextProg n) b.1.toNat) (chtNextMaskLo n) (chtNextMaskHi n) b.2.toNat) d

/-- A bank copied to ACTIVE (R83). -/
def putActive (bank : List (W32 × Word)) (d : Dev) : Dev :=
  let d1 := forN 12 (fun n d =>
    let b := nth bank n (0, 0)
    wr64 (wr d (chtActProg n) b.1.toNat) (chtActMaskLo n) (chtActMaskHi n) b.2.toNat) d
  wr d1 chtDoneExpect ((List.range 12).map (fun n => if (nth bank n (0, 0)).2 = 0 then 0 else 2 ^ n)).sum

/-- The skeins that hold an in-service channel, as the SRAM copies stand (R83). -/
def liveSkeins (d : Dev) : Nat :=
  (List.range 512).foldl (fun m x =>
    let e := entryRaw d x
    if entType e != 0 && entEn e && entryValid d x e then putBit m (entSkein e) true else m) 0

/-- The first skein in two masks of a bank (R83). -/
def conflictSkein (bank : List (W32 × Word)) : Option Nat :=
  (List.range 64).find? (fun s => decide (1 < (bank.filter (fun b => bit b.2.toNat s)).length))

/-- The first skein with an in-service channel and in no mask (R83). -/
def orphanSkein (d : Dev) (bank : List (W32 × Word)) : Option Nat :=
  (List.range 64).find? (fun s => bit (liveSkeins d) s && !bank.any (fun b => bit b.2.toNat s))

/-- A committed ARM is judged and arms the switch, or is refused (R83); `avail n` says whether pair `n` is
neither quarantined nor powered down. DETAIL of LATE_SWITCH and SWITCH_BUSY, which concern no entry, skein or pair, is 0
(R94; DESIGN CHOICE, log entry 123). -/
def armApply (avail : Nat → Bool) (f : Word) (bank : List (W32 × Word)) (d : Dev) : Dev :=
  if d.cht.armed.isSome then captureErr .cht 0x0105 0 d
  else
    let d1 := wr64 (putNext bank d) chtSwitchFrameLo chtSwitchFrameHi f.toNat
    let n := workFrame d
    if f.toNat ≤ n.toNat + 1 then captureErr .cht 0x0101 0 d1
    else match conflictSkein bank with
      | some s => captureErr .cht 0x0102 s d1
      | none => match orphanSkein d1 bank with
        | some s => captureErr .cht 0x0103 s d1
        | none => match (List.range 12).find? (fun p => (nth bank p (0, 0)).2 != 0 && !avail p) with
          | some p => captureErr .cht 0x0104 p d1
          | none => wr (wr { d1 with cht := { d1.cht with armed := some (f, bank), froze := [] } } chtArmed 1) chtPostponed 0

/-- No switch is armed any more. -/
def disarm (d : Dev) : Dev := wr { d with cht := { d.cht with armed := none } } chtArmed 0

/-- A committed CANCEL disarms a switch not yet too near, else is ignored and counted (R84). `fresh` says that an
ARM was committed at the same point. -/
def cancelApply (fresh : Bool) (d : Dev) : Dev :=
  match d.cht.armed with
  | none => d
  | some (f, _) =>
    if fresh || decide ((workFrame d).toNat + 1 < f.toNat) then disarm d
    else inc d chtLateCancelCount

/-- Whether skein `s` was in some pair's mask for the last frame. -/
def heldBefore (d : Dev) (s : Nat) : Bool :=
  (List.range 12).any (fun n => bit (tget (fun _ => (0 : Word)) d.cht.prevMask n).toNat s)

/-- Where a move with SRC 0 comes from when the old pair's memory cannot give it: the twin, or nowhere (R91). -/
def otherSrc (pairTwin : Bool) : Nat := if pairTwin then 1 else 2

/-- The moves a switch makes, with SRC 1 taken as cold where no twin copy is to be had, and SRC 0 taken as 1 or 2 where
the old pair has frozen since the switch was armed, or was quarantined for a mask that differed (R88, R91, R377). -/
def switchMoves (d : Dev) (bank : List (W32 × Word)) (twinCopy : Bool) : List Move :=
  (List.range 64).filterMap (fun s =>
    let o := ownerPair d s
    let n := (List.range 12).find? (fun p => bit (nth bank p (0, 0)).2.toNat s)
    match n with
    | none => none
    | some p =>
      if o = some p then none
      else
        let src := rd d (chtSrc s)
        let src0 := if src = 3 then 0 else src
        let given := d.cht.froze.contains (o.getD 12) || (o.isSome && (ply d (o.getD 12)).mismatched)
        let src1 := if o.isNone then 2 else if src0 = 1 && !twinCopy then 2
          else if src0 = 0 && given then otherSrc twinCopy else src0
        some { skein := s, src := src1, from_ := o.getD 12, to_ := p, done := decide (src1 = 2), begun := false, mark := 0 })

/-- MIGRATION_LATE records for the moves given (R90, R91, R275). -/
def logLate (ms : List Move) (d : Dev) : Dev :=
  forEach ms (fun m d => logEv 0x1303 0 1 [(2, m.skein), (2, m.to_)] 0 d) (raise .cht 2 d)

/-- The commit point of the frame before the switch frame: the moves are set up (R88). A postponed switch comes to it again,
for the frame that is then the one before, and its moves are judged anew. SRC and SPINDLE_CH, which ARM does not carry, are
taken as they stand here (DESIGN CHOICE, log entry 124). -/
def switchPrepare (twinCopy : Bool) (d : Dev) : Dev :=
  match d.cht.armed with
  | some (f, bank) => if f = d.clk.frame then { d with cht := { d.cht with moves := switchMoves d bank twinCopy } } else d
  | none => d

/-- A pair that computes nothing: frozen, copying, resetting or quarantined (R375, R379). -/
def muted (d : Dev) (p : Nat) : Bool := decide (2 ≤ pstate d p) && decide (pstate d p ≤ 5)

/-- The old pairs whose overrun postpones the switch: those that compute; a muted pair has no completion to give, and its
moves do not wait for it (R91; DESIGN CHOICE, log entry 125). -/
def oldPairs (d : Dev) : List Nat := (d.cht.moves.map (fun m => m.from_)).filter (fun p => !muted d p)

/-- The switch applies at the commit point for its frame, unless an old pair overran, or no frame was computed
(R83, R91). The descriptors compare with the masks of the frame computed last (R86). A postponement moves SWITCH_FRAME on
with the switch (DESIGN CHOICE, log entry 126). -/
def switchApply (d : Dev) : Dev :=
  let masks : Table Word := List.foldl (fun t n => tset (fun _ => (0 : Word)) t n (BitVec.ofNat 64 (actMask d n))) [] (List.range 12)
  let keep := if d.cht.computing.isSome then { d with cht := { d.cht with prevMask := masks } } else d
  match d.cht.armed with
  | none => keep
  | some (f, bank) =>
    if f = workFrame d then
      let late := d.cht.overran.any (fun p => (oldPairs d).contains p)
      if late || d.cht.computing.isNone then
        let d1 := { keep with cht := { keep.cht with armed := some (f + 1, bank) } }
        let d2 := wr64 (wr d1 chtPostponed 1) chtSwitchFrameLo chtSwitchFrameHi (f + 1).toNat
        if d.cht.computing.isNone then
          (if d.cht.stopLogged then d2
           else logLate (d.cht.moves.take 1) { d2 with cht := { d2.cht with stopLogged := true } })
        else logLate (d.cht.moves.filter (fun m => d.cht.overran.contains m.from_)) d2
      else
        let cold := (d.cht.moves.filter (fun m => m.src == 2)).foldl (fun a m => putBit a m.skein true) 0
        let d1 := putActive bank { keep with cht := { keep.cht with armed := none, cold := BitVec.ofNat 64 cold } }
        raise .cht 0 (wr64 (wr d1 chtArmed 0) chtAppliedFrameLo chtAppliedFrameHi f.toNat)
    else keep

/-- The descriptor of pair `n` for the frame computed (R86); at a cold rejoin every skein starts cold (R378). -/
def descriptor (d : Dev) (n : Nat) (rejoin coldAll : Bool) : List Byte :=
  let act := actMask d n
  let prev := (tget (fun _ => (0 : Word)) d.cht.prevMask n).toNat
  let minus (a b : Nat) : Nat := (List.range 64).foldl (fun m s => if bit a s && !bit b s then putBit m s true else m) 0
  let min_ := minus act prev
  let mout := match d.cht.armed with
    | some (f, bank) => if f = d.clk.frame then minus act (nth bank n (0, 0)).2.toNat else 0
    | none => 0
  let cold := if coldAll then act else (List.range 64).foldl (fun m s =>
    if bit min_ s && (bit d.cht.cold.toNat s || !heldBefore d s) then putBit m s true else m) 0
  leBytes 8 (workFrame d).toNat ++ leBytes 8 act ++ leBytes 8 min_ ++ leBytes 8 mout ++ leBytes 8 cold ++
    leBytes 8 (rd d (chtActProg n) * 64) ++ leBytes 8 (b2n (is48 d) + 2 * b2n rejoin) ++ leBytes 200 0

/-- The descriptors of every pair with a non-zero ACTIVE mask are written (R86). -/
def writeDescriptors (rejoin cold : Nat → Bool) (d : Dev) : Dev :=
  forN 12 (fun n d => if actMask d n = 0 then d
    else wrWindow (localBase n + 0x7FF00) (descriptor d n (rejoin n) (rejoin n && cold n)) d) d

/-- The route words written into the SRAM copies of entries 0 to 191, for hosts to see (R71). -/
def writeRoutes (d : Dev) : Dev :=
  forN 192 (fun x d =>
    let e := entryRaw d x
    putOut .cht (entryAt d x + 0x20) (leBytes 8 (routeOf d x e (fetchJudge d x e).1)) d) d

/-- A completion write of pair `n` (R87). -/
def doneWrite (n v : Nat) (d : Dev) : Dev :=
  if v = rdN d (localBase n + 0x7FF00) 4 then
    wr d chtDoneStatus (putBit (rd d chtDoneStatus) n true)
  else captureErr .cht 0x0106 n d

/-- The completions are checked at frame cycle 108,032 (R27, R87). -/
def checkDone (d : Dev) : Dev :=
  match d.cht.computing with
  | none => { d with cht := { d.cht with overran := [] } }
  | some n =>
    let late := (List.range 12).filter (fun p => bit (rd d chtDoneExpect) p && !bit (rd d chtDoneStatus) p)
    forEach late (fun p d => raise .cht 1 (logAt n 0x1301 0 1 [(2, p)] 0 (inc d chtOverrunCount)))
      { d with cht := { d.cht with overran := late } }

/-- The state of a skein asked of the twin (R88, R395). -/
def askSkein (m : Move) (d : Dev) : Dev := sendMsg (.bulk 0 (.askSkein (Fin.ofNat 64 m.skein) (Fin.ofNat 12 m.to_))) d

/-- The migration trigger at frame cycle 108,288 of a switch's last old-pair period (R88, R91). -/
def migrationTrigger (d : Dev) : Dev :=
  match d.cht.armed with
  | some (f, _) =>
    if f = d.clk.frame && d.cht.computing.isSome && !d.cht.overran.any (fun p => (oldPairs d).contains p) then
      let d1 := { d with cht := { d.cht with moves := d.cht.moves.map (fun m =>
        { m with begun := true, mark := (spGet d (rd d (chtSpindleCh m.skein))).fulls }) } }
      spDeliver (spPulse 144 (forEach (d.cht.moves.filter (fun m => m.src == 1 && !m.done)) askSkein d1))
    else d
  | none => d

/-- A local move that is not complete: its Spindle channel has completed no transfer since the migration trigger
(R88, R90). -/
def moveOpen (d : Dev) (m : Move) : Bool :=
  m.src == 0 && !m.done && !(m.begun && decide (m.mark < (spGet d (rd d (chtSpindleCh m.skein))).fulls))

/-- The local moves whose Spindle channel has finished are marked done (R90). -/
def markMoves (d : Dev) : Dev :=
  { d with cht := { d.cht with moves := d.cht.moves.map (fun m =>
    if m.src = 0 && !moveOpen d m then { m with done := true } else m) } }

/-- Open local moves that cannot be made are made from the twin, which is asked once the migration trigger was given, or cold
when ALONE (R91). -/
def moveFailed (pairTwin : Bool) (f : Move → Bool) (d0 : Dev) : Dev :=
  let fails (m : Move) : Bool := moveOpen d0 m && f m
  let d := doIf pairTwin (forEach (d0.cht.moves.filter (fun m => fails m && m.begun)) askSkein) d0
  let cold := (d.cht.moves.filter fails).foldl (fun a m => putBit a m.skein true) d.cht.cold.toNat
  { d with cht := { d.cht with
    moves := d.cht.moves.map (fun m => if fails m then { m with src := otherSrc pairTwin, done := !pairTwin } else m)
    cold := if pairTwin then d.cht.cold else BitVec.ofNat 64 cold } }

/-- The open moves of an applied switch whose Spindle channel has stopped with an error (R91). -/
def movesStopped (pairTwin : Bool) (d : Dev) : Dev :=
  if d.cht.armed.isNone then
    moveFailed pairTwin (fun m => flag d (chChStatusStopped (rd d (chtSpindleCh m.skein)))) d
  else d

/-- A block of skein state from the twin for pair `p` belongs to one of its moves with SRC 1 (R88, R90). -/
def twinMoves (d : Dev) (p : Nat) : Bool := (d.cht.moves ++ d.cht.tail).any (fun m => m.src == 1 && m.to_ == p)

/-- The move of skein `s` from the twin is made. -/
def twinMoved (s : Nat) (d : Dev) : Dev :=
  { d with cht := { d.cht with moves := d.cht.moves.map (fun m =>
    if m.src = 1 && m.skein = s then { m with done := true } else m) } }

/-- A move not complete at frame cycle 8,192 of the switch frame's period is late (R90); one from the twin is still
awaited for one frame more. -/
def migrationLate (pairTwin : Bool) (d : Dev) : Dev :=
  let d0 := { d with cht := { d.cht with tail := [] } }
  if d.cht.armed.isNone && !d.cht.moves.isEmpty then
    let d1 := markMoves (movesStopped pairTwin d0)
    let late := d1.cht.moves.filter (fun m => !m.done)
    let d2 := { d1 with cht := { d1.cht with moves := [], tail := late.filter (fun m => m.src == 1) } }
    if late.isEmpty then d2 else logLate late d2
  else d0

end Sys2Proof.Machine
end

