-- ==== Sys2Proof/Machine/Ply.lean ====
section
/-! DEFINITION. Two-ply lockstep (R364 to R385): faults, freeze, recovery from the twin or from a cold start,
quarantine, and debug. -/

namespace Sys2Proof.Machine

/-- The module is one of a pair with a healthy link (R373, R376). -/
def paired (st : TwinState) (d : Dev) : Bool := (st == .owner || st == .partner) && d.twin.linkUp

/-- The pair's channels are refused: it has frozen and not rejoined, and the samples of the frame had not all been read out of
its local window (R375). -/
def plyRefuses (d : Dev) (p : Nat) : Bool := muted d p && (ply d p).spared != some (workFrame d)

/-- Every sample that pair `p` computed for the frame has been read out of its local window: by the Spindle reads that fill the
output buffer from OUTPUT_OPEN on (R291, R375). -/
def samplesRead (d : Dev) (p : Nat) : Bool :=
  let base := rd d (strmOutBase 0) * 256
  let filled (a : Nat) : Bool := (ply d p).outRead.any (fun r => decide (r.1 ≤ a) && decide (a < r.1 + r.2))
  d.cht.computing.isSome && decide (108032 ≤ d.clk.cycle) && (List.range 192).all (fun k =>
    let e := entryNow d k
    !(inService e && ownerPair d (entSkein e) == some p) || (List.range (4 * nSamp d)).all (fun i => filled (base + 64 * k + i)))

/-- The ACTIVE masks of CPn differ between the twins, as far as the changes committed for both say (R376, R377). -/
def masksDiffer (d : Dev) (p : Nat) : Bool := tget (fun _ => (0 : Word)) d.twin.peerMask p != BitVec.ofNat 64 (actMask d p)

/-- The twin is asked for CPn's local memory, or asked no more (R376). -/
def askMemory (p : Nat) (wanted : Bool) (d : Dev) : Dev := sendMsg (.bulk 0 (.askMemory (Fin.ofNat 12 p) wanted)) d

/-- A pair that was copying from the twin copies no more. -/
def copyEnds (p : Nat) (d : Dev) : Dev := doIf (pstate d p == 3) (askMemory p false) d

/-- Operations in flight are abandoned, a torn table read among them, and the EVC returns a presentation to pending; a
wait ends with the cycles it lasted counted (R78, R192, R206, R375). -/
def stopPair (p : Nat) (d : Dev) : Dev :=
  let d1 := onCore p (fun c => { c with pipe := [], sync := [], div := none, fpi := none, ext := [], wb := [],
                                        fence := false, fenceErr := none, waiting := none, entry := none, miss := none, queue := [] })
    (waited p d)
  let d2 := { d1 with cht := { d1.cht with tornTries := tset (fun _ => 0) d1.cht.tornTries p 0 } }
  match tget (fun _ => none) d2.evc.presented p with
  | some s => setPresented p none (withdrawn s d2)
  | none => d2

/-- Faults of the pair in the current window of 4,800,000 frames (R379). -/
def windowFaults (d : Dev) (p : Nat) : Nat :=
  ((ply d p).faults.filter (fun f => decide (d.clk.frame.toNat - f.toNat < 4800000))).length

/-- A record whose severity, or a field, the manual does not give takes free values there (R18). -/
def logFree (typ : Nat) (sev : Option Nat) (pl : Nat → List (Nat × Nat)) (d : Dev) : Dev :=
  let v := (freshVal d).toNat
  freshNext (logEv typ 0 (sev.getD (v / 2 ^ 32 % 3)) (pl (v % 2 ^ 16)) 0 d)

/-- The pair is quarantined: it stays frozen with its memory kept (R379). -/
def quarantine (p : Nat) (d : Dev) : Dev :=
  let d1 := wr (stopPair p (copyEnds p d)) (plyPstateState p) 5
  let d2 := onPly p (fun x => { x with frozen := none, tested := false, tried := false, released := false, injecting := false }) d1
  logFree 0x2004 (some 1) (fun v => [(2, v)]) (raise (plyBlk p) 3 d2)

/-- A fault of the pair is counted in its window (R379). -/
def countFault (p : Nat) (d : Dev) : Dev :=
  onPly p (fun x => { x with faults := (d.clk.frame :: x.faults).take 3 }) d

/-- LAST_FAULT and its frame (R385). -/
def lastFault (p cls group port : Nat) (unresolved : Bool) (d : Dev) : Dev :=
  let d1 := wr (wr (wr (wr d (plyLastFaultClass p) cls) (plyLastFaultGroup p) group) (plyLastFaultPort p) port)
    (plyLastFaultUnresolved p) (b2n unresolved)
  wr64 d1 (plyLastFaultFrameLo p) (plyLastFaultFrameHi p) d.clk.frame.toNat

/-- CLASS of a fault (R385). -/
def classCode : FaultClass → Nat
  | .divergence => 0
  | .checker => 1
  | .delayPath => 2
  | .latent => 3

/-- A pair whose ACTIVE mask differs between the twins is quarantined at once; its skeins are moved with SRC 0 taken as 1, in the
switch under way and in those to come (R377). -/
def mismatch (p : Nat) (d : Dev) : Dev :=
  let d1 := { d with cht := { d.cht with moves := d.cht.moves.map (fun m =>
    if m.from_ = p && m.src = 0 && !m.done then { m with src := 1 } else m) } }
  onPly p (fun x => { x with mismatched := true }) (quarantine p d1)

/-- The way back of a frozen pair is chosen (R376, R377): from the twin; quarantine when the ACTIVE masks differ;
else a cold restart. -/
def recover (st : TwinState) (p : Nat) (d : Dev) : Dev :=
  let set (x : PlySt) (cold : Bool) : PlySt :=
    { x with frozen := some d.clk.frame, resetDone := false, injecting := false, copied := false, sweepFrame := none,
             twinDone := none, reloading := false, refused := 0, cold := cold }
  if paired st d && masksDiffer d p then mismatch p d
  else onPly p (fun x => set x (!paired st d)) d

/-- A boundary fault freezes the pair (R369, R375, R384). -/
def freeze (st : TwinState) (p : Nat) (cls : FaultClass) (group : Nat) (d : Dev) : Dev :=
  let again := pstate d p == 3 || pstate d p == 4
  let spare := if again then none else if samplesRead d p then some (workFrame d) else none
  let d0 := wr (stopPair p (copyEnds p (onPly p (fun x => { x with latent := [], spared := spare }) d))) (plyPstateState p) 2
  let d1 := wr d0 (plyDbgHalted p) 0
  let d2 := match cls with
    | .divergence => inc (captureErr (plyBlk p) 0x100 group d1) (plyDivergeCount p)
    | .checker => inc (captureErr (plyBlk p) 0x101 group d1) (plyCheckerCount p)
    | .delayPath => inc (captureErr (plyBlk p) 0x102 group d1) (plyDelayCount p)
    | .latent => d1
  let d3 := countFault p (lastFault p (classCode cls) group 0 false d2)
  let d4 := raise (plyBlk p) 0 d3
  let d5 := logEv 0x2001 0 (if st = .alone then 2 else 1)
    [(2, classCode cls), (2, group), (8, d.clk.frame.toNat), (4, d.clk.cycle)] (windowFaults d4 p) d4
  let d6 := moveFailed (paired st d5) (fun m => m.from_ == p) { d5 with cht := { d5.cht with froze := p :: d5.cht.froze } }
  if 3 ≤ windowFaults d6 p ∧ ((ply d6 p).faults.length = 3 ∨ again) then quarantine p d6 else recover st p d6

/-- The swept register at a port: the P registers as one word (R372). -/
def sweptWord (c : Core) (port : Nat) : Word := if port = 0xD0 then BitVec.ofNat 64 c.preds else c.port port

/-- A swept register given a word in both plies (R373, R376). -/
def putSwept (port : Nat) (v : Word) (c : Core) : Core :=
  if port = 0xD0 then c.setPreds v.toNat else c.put port (v &&& BitVec.ofNat 64 (portMask port))

/-- The registers of a swept word in which two words differ: the P registers are eight (R372). -/
def sweptPorts (port : Nat) (a b : Word) : List Nat :=
  if port = 0xD0 then ((List.range 8).filter (fun i => bit a.toNat i != bit b.toNat i)).map (fun i => 0xD0 + i) else [port]

/-- Ply B holds `b` where ply A holds `a`. -/
def differ (port : Nat) (a b : Word) (c : Core) : Core :=
  let t := (sweptPorts port a b).foldl (fun t q => tset (fun _ => none) t q (some (if port = 0xD0 then BitVec.ofNat 64 (b2n (bit b.toNat (q - 0xD0))) else b))) c.plyB
  { c with plyB := t }

/-- The registers of a swept word that still differ as they did: neither ply has written them since (R373). -/
def stillDiffer (c : Core) (port : Nat) (a b : Word) : List Nat :=
  (sweptPorts port a b).filter (fun q => c.plyB.any (fun e => e.1 == q))

/-- The signals a comparator group examines (R366). -/
inductive CmpSignal where
  | extRequest | cacheRequest | eviction | windowRead | evcLines | debugTrace | stateSweep
  deriving DecidableEq, Repr

/-- The 38 groups of 16 bits (R366). -/
def groupSignal (g : Fin 38) : CmpSignal :=
  if g.val < 8 then .extRequest
  else if g.val < 19 then .cacheRequest
  else if g.val < 23 then .eviction
  else if g.val < 31 then .windowRead
  else if g.val = 31 then .evcLines
  else if g.val < 34 then .debugTrace
  else .stateSweep

/-- The class of a fault: a difference is latent exactly in the groups of the state sweep (R369, R370). -/
def faultClass : PlyFault → FaultClass
  | .checker _ => .checker
  | .delay _ => .delayPath
  | .difference g => if groupSignal g = .stateSweep then .latent else .divergence
  | .windowRead _ | .eccOnePly _ => .divergence

/-- The group or stage of a fault, as GROUP and DETAIL give it: the group of a window read is that of the byte's place in the 128
bits; an ECC error has none and gives 0 (R366, R385; DESIGN CHOICE, log entry 170). -/
def faultPlace : PlyFault → Nat
  | .checker g | .difference g => g.val
  | .delay s => s.val
  | .windowRead a => 23 + a.toNat % 16 / 2
  | .eccOnePly _ => 0

/-- Where the plies' copies of local memory differ by a fault. -/
def faultByte : PlyFault → List Nat
  | .windowRead a | .eccOnePly a => [a.toNat]
  | _ => []

/-- The order of the fault classes, the highest first (R369). -/
def classRank : FaultClass → Nat
  | .checker => 0
  | .delayPath => 1
  | .divergence => 2
  | .latent => 3

/-- The fault recorded when several arise in one cycle: the first of the highest class, with its group or stage (R369). -/
def worstFault : List PlyFault → Option (FaultClass × Nat)
  | [] => none
  | f :: r =>
    match worstFault r with
    | none => some (faultClass f, faultPlace f)
    | some g => if classRank g.1 < classRank (faultClass f) then some g else some (faultClass f, faultPlace f)

/-- The sweep group that compares the first 16-bit slice in which two words differ (R366, R372). -/
def sweepGroup (a b : Word) : Nat :=
  34 + ((List.range 4).find? (fun i => bits a.toNat (16 * i + 15) (16 * i) != bits b.toNat (16 * i + 15) (16 * i))).getD 0

/-- A boundary fault has frozen the pair in this frame period: its latent corrections are dropped (R384). -/
def frozeNow (d : Dev) (p : Nat) : Bool :=
  !(ply d p).faults.isEmpty && rd d (plyLastFaultClass p) != 3 &&
    rd64 d (plyLastFaultFrameLo p) (plyLastFaultFrameHi p) == d.clk.frame.toNat

/-- COMPARATOR_MISMATCH: what the PLY block meets in one cycle; `port` and `plyB` are the swept register and ply B's word of a
latent divergence (R369, R370, R373, R375). During the injection freezes are suppressed (R371). -/
def doComparatorMismatch (st : TwinState) (p : Nat) (faults : List PlyFault) (port : Nat) (plyB : Word)
    (d : Dev) : Dev :=
  let s := pstate d p
  let live := s == 1 || s == 3 || s == 4 || s == 6 || s == 7
  if !live || (ply d p).injecting then d
  else match worstFault faults with
  | none => d
  | some (cls, group) =>
  if cls = .latent then
    let a := sweptWord (core (settle p d) p) port
    if port ≤ 0xD0 && a != plyB && !frozeNow d p then
      onPly p (fun x => { x with latent := x.latent ++ [(port, a, plyB)] }) (onCore p (differ port a plyB) d)
    else d
  else
    let apart := faults.flatMap faultByte
    freeze st p cls group (doIf (!apart.isEmpty) (onCore p (fun c => { c with plyMem := c.plyMem ++ apart })) d)

/-- The twin's swept word of a register for the frame, where one is available (R373). -/
def twinWord (st : TwinState) (p port : Nat) (d : Dev) : Option Word :=
  if paired st d && !masksDiffer d p && (ply d p).sweepFrame == some (workFrame d) then
    some (tget (fun _ => 0) d.twin.sweep (256 * p + port))
  else none

/-- One ply's word copied into the other in each register that still differs, which stalls the pair for a cycle (R373). -/
def copySwept (p port : Nat) (a b v : Word) (d : Dev) : Dev :=
  let l := stillDiffer (core d p) port a b
  if l.isEmpty then d
  else onCore p (fun c => (l.foldl (fun c q => if port = 0xD0 then c.put q (BitVec.ofNat 64 (b2n (bit v.toNat (q - 0xD0))))
      else putSwept port v c) c).spend 1) d

/-- A latent divergence recorded; the third fault of the window quarantines the pair (R373, R379). -/
def recordLatent (p port group : Nat) (un : Bool) (d : Dev) : Dev :=
  let d1 := countFault p (lastFault p 3 group port un (inc (captureErr (plyBlk p) 0x103 port d) (plyLatentCount p)))
  let d2 := logFree 0x2002 (some 1) (fun v => [(2, port), (2, v)]) (raise (plyBlk p) 1 d1)
  if 3 ≤ windowFaults d2 p then quarantine p d2 else d2

/-- A latent divergence is resolved at the tick; one that neither ply's word explains freezes the pair, which drops the others
(R373, R384). -/
def resolveOne (st : TwinState) (p : Nat) (l : Nat × Word × Word) (d : Dev) : Dev :=
  let port := l.1
  let a := l.2.1
  let b := l.2.2
  let group := sweepGroup a b
  if muted d p then d
  else match twinWord st p port d with
  | none => recordLatent p port group true (copySwept p port a b a d)
  | some w =>
    if w = a then recordLatent p port group false (copySwept p port a b a d)
    else if w = b then recordLatent p port group false (copySwept p port a b b d)
    else freeze st p .divergence group d

/-- The latent divergences of a frame are resolved at the tick (R373). -/
def latentResolve (st : TwinState) (p : Nat) (d : Dev) : Dev :=
  forEach (ply d p).latent (resolveOne st p) (onPly p (fun x => { x with latent := [] }) d)

/-- The local memory of a pair cleared to zero (R378). -/
def clearLocal (p : Nat) (d : Dev) : Dev :=
  onCore p (Core.heal 0 0x80000)
    { d with mem := d.mem.filter (fun e => !(decide (localBase p ≤ e.1) && decide (e.1 < localBase p + 0x80000))) }

/-- The registers of both plies return to their reset values, caches invalid, fetch at REJOIN_VEC, the pair's sources
released, and the injection begins (R204, R371, R376, R378). Local memory, with its upsets, is left as it is. -/
def resetPair (p : Nat) (d : Dev) : Dev :=
  let fresh (c : Core) : Core := { Core.reset.goto (rd d (plyRejoinVec p) * 64) with
    upsets := c.upsets.filter (fun x => decide (x.1 < 0x80000)), plyMem := c.plyMem }
  let d1 := evcDropPair p (onCore p fresh d)
  onPly p (fun x => { x with resetDone := false, injecting := true, reloading := false }) d1

/-- A pair on its way back from the twin restarts cold once the module is ALONE, and is quarantined once its mask differs
(R377). -/
def coldInstead (st : TwinState) (p : Nat) (d : Dev) : Dev :=
  let x := ply d p
  let comes : Bool := (pstate d p == 2 || pstate d p == 3) && x.frozen.isSome && !x.cold
  if comes && paired st d && masksDiffer d p then mismatch p d
  else if st = .alone ∧ comes then
    onPly p (fun x => { x with resetDone := false, injecting := false, copied := false, sweepFrame := none,
                               reloading := false, cold := true }) (wr (stopPair p d) (plyPstateState p) 4)
  else d

/-- PLY_RESET: the plies of a frozen pair reset (R376, R378). -/
def doPlyReset (p : Nat) (d : Dev) : Dev :=
  let x := ply d p
  if (pstate d p == 2 || pstate d p == 4) && x.frozen.isSome && !x.resetDone && !x.injecting then
    let d1 := resetPair p (wr d (plyPstateState p) (if x.cold then 4 else 3))
    if x.cold then clearLocal p d1 else askMemory p true d1
  else d

/-- INJECTION_END: every injection was reported, or a group or stage stayed silent (R371). -/
def doInjectionEnd (p : Nat) (silent : Option (Fin 64)) (d : Dev) : Dev :=
  let x := ply d p
  if !x.injecting then d
  else match silent with
    | some g =>
      let d1 := wr (wr d (plyPstateInjectOk p) 0) (plyPstateInjectGroup p) g.val
      let d2 := captureErr (plyBlk p) 0x104 g.val d1
      quarantine p (logFree 0x2006 none (fun _ => [(2, g.val)]) d2)
    | none =>
      let d1 := wr (wr (onPly p (fun x => { x with injecting := false, resetDone := true }) d) (plyPstateInjectOk p) 1)
        (plyPstateInjectGroup p) 0
      if x.released then
        wr (onPly p (fun x => { x with released := false, frozen := none }) d1) (plyPstateState p) 1
      else if pstate d p = 4 then
        let d2 := onPly p (fun x => { x with reloading := true, reloadMark := (spGet d (rd d (plyReloadCh p))).fulls }) d1
        if flag d (plyReloadValid p) then spTrigger (rd d (plyReloadCh p)) d2 else d2
      else if pstate d p = 3 || pstate d p = 5 || !flag d (hdrEn (plyBlk p)) then d1
      else wr d1 (plyPstateState p) 1

/-- RESYNC_COPY_COMPLETE: the twin's local memory has been written into both plies (R376). -/
def doResyncCopyComplete (p : Nat) (d : Dev) : Dev :=
  if pstate d p = 3 then onPly p (fun x => { x with copied := true }) d else d

/-- RESYNC_TIMEOUT: no rejoin within 64 frames of the freeze (R377). -/
def doResyncTimeout (p : Nat) (d : Dev) : Dev :=
  match (ply d p).frozen with
  | some f =>
    if (pstate d p = 3 ∨ pstate d p = 2) ∧ !(ply d p).cold ∧ 64 ≤ d.clk.frame.toNat - f.toNat then
      quarantine p (captureErr (plyBlk p) 0x106 0 d)
    else d
  | none => d

/-- The pair rejoins at this tick (R376, R378): its record, its count, and REJOIN in the next descriptor. -/
def rejoin (p : Nat) (d0 : Dev) : Dev :=
  let d := copyEnds p d0
  let n := (ply d p).refused
  let d1 := onPly p (fun x => { x with frozen := none, rejoin := true, copied := false, sweepFrame := none, twinDone := none,
                                       reloading := false }) d
  let d2 := raise (plyBlk p) 2 (inc (wr d1 (plyPstateState p) 1) (plyRejoinCount p))
  logFree 0x2003 (some 0) (fun v => [(8, (workFrame d).toNat), (4, n), (2, v)]) d2

/-- The twin's swept words of a pair written into both plies (R376, R406). -/
def takeSweep (p : Nat) (d : Dev) : Dev :=
  (List.range 209).foldl (fun d i => onCore p (putSwept i (tget (fun _ => 0) d.twin.sweep (256 * p + i))) d) d

/-- The tick of a frozen pair: the twin's words are written and it rejoins when R376 allows it (the copy complete before the
sweep, the twin's pair complete in the period, the handler waiting), or R378 (the reload channel has set FULL since it was
triggered, the handler waiting). -/
def pairRejoin (p : Nat) (d : Dev) : Dev :=
  let x := ply d p
  let waits := (core d p).waiting.isSome
  let period := some (workFrame d)
  if pstate d p = 3 && x.resetDone && x.copied && waits && x.sweepFrame == period && x.twinDone == period then
    rejoin p (takeSweep p d)
  else if pstate d p = 4 && x.resetDone && x.reloading && waits &&
      (!flag d (plyReloadValid p) || decide (x.reloadMark < (spGet d (rd d (plyReloadCh p))).fulls)) then
    rejoin p d
  else d

/-- A committed pair reset: a cold restart, unless the pair is quarantined (R381, R384), or no image was valid and every pair
stays in reset (R414). -/
def pairResetApply (p : Nat) (d : Dev) : Dev :=
  if pstate d p = 5 || d.bist.bootFailed then d
  else
    let d1 := wr (stopPair p (copyEnds p d)) (plyPstateState p) 4
    onPly p (fun x => { x with frozen := some d.clk.frame, resetDone := false, injecting := false, copied := false,
                               sweepFrame := none, twinDone := none, reloading := false, refused := 0, cold := true }) d1

/-- QUAR_RELEASE by H0 after a passing self-test: reset and injection, then the rejoin handler (R380). -/
def quarRelease (p : Nat) (d : Dev) : Dev :=
  onPly p (fun x => { x with released := true, faults := [], tested := false, mismatched := false }) (resetPair p d)

/-- Whether QUAR_RELEASE is accepted (R380). -/
def quarReleaseOk (d : Dev) (p : Nat) : Bool := pstate d p == 5 && (ply d p).tested

/-! ### Debug (R105, R382) -/

/-- The port named by DBG_PORT as a debug read returns it; a port that cannot be read gives a free value. -/
def dbgValue (d : Dev) (p : Nat) : Word :=
  let id := rd d (plyDbgPort p)
  if readable id then (core (settle p d) p).read p 0 id else freshVal d

/-- DBG_DATA written to the port named, in both plies (R382). -/
def dbgPut (p : Nat) (d0 : Dev) : Dev :=
  let d := settle p d0
  let id := rd d (plyDbgPort p)
  let v := BitVec.ofNat 64 (rd64 d (plyDbgDataLo p) (plyDbgDataHi p))
  match portKind id with
  | .none => d
  | .operand => onCore p (Core.put id (v &&& BitVec.ofNat 64 (portMask id))) d
  | .reg => onCore p (fun c => c.syncAll) (drain p (onCore p (regMove id v) d))
  | .trigger =>
    if cuControl id then
      (if id = 0x3C5 ∧ (core d p).level = 0 then d
       else onCore p (fun c => cuEffect c.pc (some ⟨0, id, v, false, none, false⟩) c) d)
    else trigUnit p id v false d

/-- One bundle issued in each ply of a halted pair (R382); its BRK bit does not halt it again. A bundle that is in neither the
queue nor the cache is fetched from memory for it, whose answer the step waits for. -/
def dbgStepOne (p : Nat) (d0 : Dev) : Dev :=
  let d1 := doIf (unheld (core d0 p)) (atIssue p) (wr d0 (plyPstateState p) 1)
  let d := if unheld (core d1 p) && (core d1 p).fetch.isNone then
      doIcacheMissFill p .none (onCore p (fun c => { c with miss := some (lineOf c.pc) }) d1) else d1
  let c := core d p
  let d1 := match c.fetch with
    | some b => if unheld c && (core d1 p).pc == c.pc then issueBits p (if bit b 29 then b - 2 ^ 29 else b) d else d
    | none => d
  if pstate d1 p = 1 then wr d1 (plyPstateState p) 7 else wr d1 (plyDbgHalted p) 0

/-- A write of the debug controls: ignored while the pair is not halted, but for DBG_HALT (R382). -/
def dbgWriteCtrl (p v : Nat) (d : Dev) : Dev :=
  let d1 := if bit v 0 && pstate d p == 1 then debugHalt p d else d
  if pstate d p ≠ 7 then d1
  else
    let d2 := if bit v 3 then
        let diff := (core d1 p).plyB.any (fun e => e.1 == rd d1 (plyDbgPort p))
        let d3 := wr (wr64 d1 (plyDbgDataLo p) (plyDbgDataHi p) (dbgValue d1 p).toNat) (plyDbgDiff p) (b2n diff)
        if readable (rd d1 (plyDbgPort p)) then d3 else freshNext d3
      else d1
    let d4 := if bit v 4 then dbgPut p d2 else d2
    let d5 := if bit v 2 then dbgStepOne p d4 else d4
    if bit v 1 && pstate d5 p == 7 then wr (wr d5 (plyDbgHalted p) 0) (plyPstateState p) 1 else d5

/-- A PLY page whose EN was cleared stops its pair at the tick, and its sources are released (R383). -/
def plyStop (p : Nat) (d : Dev) : Dev :=
  if pstate d p != 0 then
    evcDropPair p (wr (stopPair p d) (plyPstateState p) 0)
  else d

end Sys2Proof.Machine
end

