-- ==== Sys2Proof/Machine/Stream.lean ====
section
/-! DEFINITION. The media ports and the TDM ports (R281 to R299, R304 to R308): packets received and filed,
concealment, the input buffer, packets sent, and stream enables. -/

namespace Sys2Proof.Machine

/-! ### Stream table fields -/

/-- Leg `net` of RX stream `s` is enabled (R295). -/
def rxLeg (d : Dev) (s net : Nat) : Bool := flag d (if net = 0 then rxLegA s else rxLegB s)
/-- DST of a leg of RX stream `s`. -/
def rxDst (d : Dev) (s net : Nat) : Nat := rd d (if net = 0 then rxDstA s else rxDstB s)
/-- SRC of a leg of RX stream `s`. -/
def rxSrc (d : Dev) (s net : Nat) : Nat := rd d (if net = 0 then rxSrcA s else rxSrcB s)
/-- PORT of a leg of RX stream `s`. -/
def rxPort (d : Dev) (s net : Nat) : Nat := rd d (if net = 0 then rxPortA s else rxPortB s)
/-- Channels of RX stream `s`. -/
def rxChans (d : Dev) (s : Nat) : Nat := rd d (rxChannels s) + 1
/-- Channels of TX stream `t`. -/
def txChans (d : Dev) (t : Nat) : Nat := rd d (txChannels t) + 1
/-- Frames of a packet of RX stream `s` (R282). -/
def rxFrames (d : Dev) (s : Nat) : Nat := match rd d (rxPtime s) with | 0 => 1 | 1 => 2 | _ => 8
/-- Bytes of a sample: 3 for L24, 4 for L32 (R282). -/
def sampBytes (fmt : Nat) : Nat := if fmt = 0 then 3 else 4
/-- Bytes of a packet's payload of RX stream `s` (R282). -/
def rxPayload (d : Dev) (s : Nat) : Nat := nSamp d * rxFrames d s * rxChans d s * sampBytes (rd d (rxFmt s))
/-- Bytes of a packet's payload of TX stream `t` (R282). -/
def txPayload (d : Dev) (t : Nat) : Nat := nSamp d * txChans d t * sampBytes (rd d (txFmt t))
/-- Wire bytes of a packet of TX stream `t` (R293). -/
def txWire (d : Dev) (t : Nat) : Nat := txPayload d t + 82
/-- MTU of a network in force (R19, R306). -/
def mtuOf (d : Dev) (net : Nat) : Nat :=
  let m := rd d (strmMtu net)
  if 1500 ≤ m ∧ m ≤ 9000 then m else 1500
/-- Frame cycle of the receive cut-off (R285). -/
def cutoffCycle (d : Dev) : Nat := if mtuOf d 0 ≤ 1500 ∧ mtuOf d 1 ≤ 1500 then 120832 else 119808
/-- A media instance works (R306). -/
def strmRunning (d : Dev) (net : Nat) : Bool :=
  flag d (hdrActive (.strm (Fin.ofNat 2 net))) || flag d (hdrQuiescing (.strm (Fin.ofNat 2 net)))

/-! ### Receiving (R281 to R285) -/

/-- The media-clock index at the present time (R281). -/
def mediaIndex (d : Dev) : Nat := d.clk.frame.toNat * nSamp d + d.clk.cycle * nSamp d / 122880

/-- The index an RTP timestamp stands for: the one nearest the current index (R281). -/
def rtpIndex (d : Dev) (off : Nat) (ts : W32) : Int :=
  let cur := mediaIndex d
  (cur : Int) + toSigned 32 (ts.toNat + 2 ^ 33 - off - cur % 2 ^ 32)

/-- Key of a filed sample time: leg 0, 1 own A, B; 2, 3 the peer's (R286). -/
def filedKey (leg s : Nat) (i : Nat) : Nat := leg + 4 * s + 512 * i

/-- The sample time filed on a leg of stream `s` at media index `i`. -/
def filedGet (d : Dev) (leg s i : Nat) : Filed := tget (fun _ => { late := false, samples := [] }) d.strm.filed (filedKey leg s i)

/-- Big-endian sample `c` of sample time `j` of a payload, as Q1.31 or packed sense (R282). -/
def payloadSample (fmt chans : Nat) (p : List Byte) (j c : Nat) : W32 :=
  let b := sampBytes fmt
  let v := ofBe ((p.drop ((j * chans + c) * b)).take b)
  BitVec.ofNat 32 (if fmt = 0 then v * 256 else v)

/-- Leg `leg` of stream `s` holds input frame `n` complete, by the cut-off (R285, R286); no sample is filed for a frame
before the first DEPTH frames of the epoch have passed. -/
def legHolds (d : Dev) (leg s n : Nat) : Bool :=
  let dep := rd d (rxDepth s)
  decide (dep ≤ n) && (List.range (nSamp d)).all (fun j =>
    let f := filedGet d leg s ((n - dep) * nSamp d + j)
    !f.samples.isEmpty && !f.late)

/-- The event lines bound to stream `s` with condition `cond` pulse (R305). -/
def strmEvent (s cond : Nat) (d : Dev) : Dev :=
  forN 64 (fun k d => if rd d (strmEvlCond 0 k) = cond ∧ rd d (strmEvlStream 0 k) = s then spPulse (160 + k) d else d) d

/-- The samples of a packet filed on a leg, from input frame `from_` on (R285, R396). -/
def filePacket (leg s : Nat) (base : Nat) (payload : List Byte) (from_ : Nat) (late : Nat → Bool) (d : Dev) : Dev :=
  let fmt := rd d (rxFmt s)
  let ch := rxChans d s
  let n := nSamp d
  let dep := rd d (rxDepth s)
  { d with strm := { d.strm with filed := (List.range (n * rxFrames d s)).foldl (fun t j =>
      let fr := (base + j) / n + dep
      if fr < from_ then t
      else tset (fun _ => { late := false, samples := [] }) t (filedKey leg s (base + j))
        { late := late fr, samples := (List.range ch).map (fun c => payloadSample fmt ch payload j c) }) d.strm.filed } }

/-- An accepted packet is filed, or dropped as late, early or duplicate (R285). -/
def rxFile (pkt : MediaPacket) (s : Nat) (d : Dev) : Dev :=
  let x := pkt.net.val
  let n := nSamp d
  let idx := rtpIndex d (rd d (rxRtpOffset s)) pkt.ts
  let base := idx.toNat
  let len := n * rxFrames d s
  let dep := rd d (rxDepth s)
  let open_ := d.clk.frame.toNat
  let first := base / n + dep
  let last := (base + len - 1) / n + dep
  if idx < 0 ∨ first < open_ then raise (.strm (Fin.ofNat 2 x)) 1 (inc d (strmRxLate x))
  else if open_ + 15 < last then inc d (strmRxEarly x)
  else if (List.range len).any (fun j => !(filedGet d x s (base + j)).samples.isEmpty) then inc d (strmRxDup x)
  else
    let frames := (List.range (last - first + 1)).map (fun i => first + i)
    let before := frames.filter (fun f => legHolds d 0 s f || legHolds d 1 s f)
    let d1 := filePacket x s base pkt.payload 0 (fun f => d.strm.cut && f == open_) d
    let now := frames.filter (fun f => (legHolds d1 0 s f || legHolds d1 1 s f) && !before.contains f)
    let d2 := forEach now (fun _ d => strmEvent s 1 d) d1
    sendMsg (.inPkt s x (BitVec.ofNat 64 (max first (if d.strm.cut then open_ + 1 else open_))) pkt.ts pkt.payload) d2

/-- The packet matches DST and PORT of an enabled leg of stream `s` (R284). -/
def rxMatches (d : Dev) (pkt : MediaPacket) (s : Nat) : Bool :=
  flag d (rxEn s) && rxLeg d s pkt.net.val && rxDst d s pkt.net.val == pkt.dst.toNat &&
    rxPort d s pkt.net.val == pkt.port.toNat

/-- Stream `s` accepts the packet (R284). -/
def rxAccepts (d : Dev) (pkt : MediaPacket) (s : Nat) : Bool :=
  rxMatches d pkt s && pkt.plain && pkt.checksumOk &&
  (rxSrc d s pkt.net.val == 0 || rxSrc d s pkt.net.val == pkt.src.toNat) &&
  pkt.rtpVersion.val == 2 && !pkt.rtpP && pkt.rtpCC.val == 0 &&
  (!flag d (rxPtCheck s) || rd d (rxPt s) == pkt.pt.toNat) && pkt.payload.length == rxPayload d s

/-- RX_PACKET: a packet arrives on a media port (R284, R285, R396). -/
def doRxPacket (pkt : MediaPacket) (d : Dev) : Dev :=
  if !strmRunning d pkt.net.val || (flag d (strmVlanEn pkt.net.val) && !pkt.vlanOk) then d
  else
    let m := (List.range 128).filter (rxMatches d pkt)
    let a := (List.range 128).filter (rxAccepts d pkt)
    if m.isEmpty then d
    else if a.isEmpty then inc d (strmRxFormatDrop pkt.net.val)
    else spDeliver (forEach a (rxFile pkt) (inc d (strmRxPkts pkt.net.val)))

/-- RX_CUTOFF: what is filed from now on for the open input frame does not count (R285). -/
def doRxCutoff (d : Dev) : Dev := let d := atCycle (cutoffCycle d) d; { d with strm := { d.strm with cut := true } }

/-! ### Closing an input frame (R286 to R288) -/

/-- The concealment state of entry `x`. -/
def concGet (d : Dev) (x : Nat) : Conceal := tget (fun _ => { r := [], j := 0, now := false }) d.strm.conceal x

/-- The concealment state of entry `x` set. -/
def concPut (x : Nat) (c : Conceal) (d : Dev) : Dev :=
  { d with strm := { d.strm with conceal := tset (fun _ => { r := [], j := 0, now := false }) d.strm.conceal x c } }

/-- Sample `j` of a concealment run from the last sample value (R287). -/
def fadeSample (r : Int) (j : Nat) : Int := (r * ((11 - j : Nat) : Int)).fdiv 12

/-- A concealed sample word; the two halves of packed sense fade separately (R287). -/
def concealWord (packed : Bool) (r : W32) (j : Nat) : W32 :=
  if packed then
    BitVec.ofNat 32 (ofSigned 16 (fadeSample (toSigned 16 (r.toNat / 65536)) j) * 65536 +
      ofSigned 16 (fadeSample (toSigned 16 r.toNat) j))
  else BitVec.ofNat 32 (ofSigned 32 (fadeSample (toSigned 32 r.toNat) j))

/-- The samples of a channel for a frame: taken as received, or concealed (R287). -/
def channelTake (x : Nat) (packed : Bool) (rx : Option (List W32)) (d : Dev) : List W32 × Dev :=
  let c := concGet d x
  match rx with
  | some l => (l, concPut x { r := l, j := 0, now := false } d)
  | none =>
    let n := nSamp d
    let l := (List.range n).map (fun i => concealWord packed (nth c.r ((c.j + i) % n) 0) (c.j + i))
    (l, concPut x { c with j := min (c.j + n) 12, now := true } d)

/-- The copies of R286 in order: legs of this module and its peer by slot; own legs only outside a pair. -/
def copyOrder (paired slotB : Bool) : List Nat :=
  if !paired then [0, 1] else if slotB then [2, 3, 0, 1] else [0, 1, 2, 3]

/-- The copy stream `s` takes for input frame `n` (R286). -/
def takenLeg (d : Dev) (paired slotB : Bool) (s n : Nat) : Option Nat :=
  if !flag d (rxEn s) then none
  else (copyOrder paired slotB).find? (fun leg => rxLeg d s (leg % 2) && legHolds d leg s n)

/-- The sense words of TDM port `k`, slot `sl`, for input frame `n`: the owner's forwarded, or this module's own
capture (R297, R298). -/
def tdmSense (d : Dev) (own : Bool) (k sl n : Nat) : Option (List W32) :=
  if tget (fun _ => false) d.strm.tdmStopped k || !flag d (hdrActive (.tdm (Fin.ofNat 12 k))) then none
  else if own then
    if (tget (fun _ => none) d.strm.capFrame ((n + 1) % 2 * 12 + k)).any (fun f => f.toNat + 1 == n) then
      some ((List.range (nSamp d)).map (fun i =>
        tget (fun _ => 0) d.strm.capture ((((n + 1) % 2 * 12 + k) * 16 + sl) * 16 + i)))
    else none
  else if (tget (fun _ => none) d.strm.fwdFrame k).any (fun f => f.toNat + 1 == n) then
    let w := tget (fun _ => []) d.strm.fwdTdm k
    some ((List.range (nSamp d)).map (fun i => nth w (i * 16 + sl) 0))
  else none

/-- An entry out of service is not concealed (R70, R73). -/
def unconceal (x : Nat) (d : Dev) : Dev := if (concGet d x).now then concPut x { concGet d x with now := false } d else d

/-- One record of the input buffer for entry `x` of input frame `n` (R288). -/
def inputRecord (paired slotB ownTdm : Bool) (n x : Nat) (d : Dev) : Dev :=
  let r := entryRead x d
  let e := r.1
  let base := rd d (strmInBase 0) * 256 + 64 * (x - 192)
  if !inService e then putOut (.strm 0) base (leBytes 64 0) (unconceal x r.2)
  else
    let s := entNetStream e
    let rx :=
      if entNetValid e then
        if entNetSlot e < rxChans d s then
          (takenLeg d paired slotB s n).map (fun leg => (List.range (nSamp d)).map (fun j =>
            nth (filedGet d leg s ((n - rd d (rxDepth s)) * nSamp d + j)).samples (entNetSlot e) 0))
        else none
      else if entTdmValid e then tdmSense d ownTdm (entTdmPort e) (entTdmSlot e) n
      else none
    let t := channelTake x (entFormat e == 3) rx r.2
    (fun l => putOut (.strm 0) base l t.2) ((t.1.flatMap (fun w => leBytes 4 w.toNat) ++ leBytes 48 0).take 48 ++
      leBytes 4 (b2n rx.isNone) ++ leBytes 12 0)

/-- Input frame `n` closes: counters, copies, concealment, the input buffer, and forgetting what is past
(R286 to R288, R298, R305). -/
def closeInput (paired slotB ownTdm : Bool) (n : Nat) (d : Dev) : Dev :=
  let on := (List.range 128).filter (fun s => flag d (rxEn s))
  let d1 := forEach on (fun s d => forN 2 (fun net d =>
    if rxLeg d s net then (if legHolds d net s n then inc d (strmRxOk net s) else inc d (strmRxMiss net s)) else d) d) d
  let d2 := forEach on (fun s d =>
    if (takenLeg d paired slotB s n).isNone then strmEvent s 2 (raise (.strm 0) 2 d) else d) d1
  let d3 := forN 12 (fun k d =>
    if flag d (hdrActive (.tdm (Fin.ofNat 12 k))) && (tdmSense d ownTdm k 0 n).isNone then
      raise (.tdm (Fin.ofNat 12 k)) 1 (inc d (tdmRxForwardMiss k)) else d) d2
  let d4 := forN 320 (fun i d => inputRecord paired slotB ownTdm n (192 + i) d) d3
  spDeliver { d4 with strm := { d4.strm with cut := false, filed := d4.strm.filed.filter (fun f =>
    let s := f.1 / 4 % 128
    decide (n < f.1 / 512 / nSamp d + rd d (rxDepth s))) } }

/-! ### Stream enables (R283, R289, R293, R295) -/

/-- Multicast (224.0.0.0/4). -/
def isMulticast (a : Nat) : Bool := a / 2 ^ 28 == 14

/-- This module's own address on a network (R292). -/
def ownAddr (d : Dev) (net : Nat) : NetAddr :=
  { mac := rd d (strmMacLo net) + rd d (strmMacHi net) * 2 ^ 32, ip := BitVec.ofNat 32 (rd d (strmIp net)) }

/-- The pair address on a network (R292). -/
def pairAddr (d : Dev) (net : Nat) : NetAddr :=
  { mac := rd d (strmPairMacLo net) + rd d (strmPairMacHi net) * 2 ^ 32, ip := BitVec.ofNat 32 (rd d (strmPairIp net)) }

/-- The filter of a group on a network (R289): whether it excludes, and its sources. -/
abbrev IgmpFilter := Bool × List W32

/-- The filter of a group that nothing receives. -/
def noFilter : IgmpFilter := (false, [])

/-- What the enabled streams receive of group `g` on a network: EXCLUDE of none where one of them takes any source, else
INCLUDE of their sources (R289). -/
def igmpFilter (d : Dev) (net g : Nat) : IgmpFilter :=
  let l := (List.range 128).filter (fun s => flag d (rxEn s) && rxLeg d s net && rxDst d s net == g)
  if l.any (fun s => rxSrc d s net == 0) then (true, [])
  else (false, (l.map (fun s => BitVec.ofNat 32 (rxSrc d s net))).eraseDups)

/-- Two filters admit the same sources. -/
def sameFilter (f g : IgmpFilter) : Bool :=
  f.1 == g.1 && f.2.all g.2.contains && g.2.all f.2.contains

/-- A group's filter changes on a network: IGMPv3 reports it; the older versions report the group joined, and IGMPv2 the
group left (R289). -/
def igmpChange (net g : Nat) (old new : IgmpFilter) (d : Dev) : Dev :=
  let none? (f : IgmpFilter) : Bool := sameFilter f noFilter
  let say (v : Nat) (f : IgmpFilter) : Dev := sendNet (.igmp net (ownAddr d net)
    { version := v, leave := none? new, group := BitVec.ofNat 32 g, exclude := f.1, sources := f.2 }) d
  let mode := rd d (strmIgmpMode net)
  if mode = 3 then (if sameFilter old new then d else say 3 new)
  else if none? old = none? new then d
  else if mode = 2 ∨ !none? new then say mode noFilter
  else d

/-- The multicast groups that enabled streams receive on a network. -/
def igmpGroups (d : Dev) (net : Nat) : List Nat :=
  (((List.range 128).filter (fun s => flag d (rxEn s) && rxLeg d s net && isMulticast (rxDst d s net))).map
    (fun s => rxDst d s net)).eraseDups

/-- Every group of a network is joined, or left (R289, R306). -/
def igmpNet (join : Bool) (net : Nat) (d : Dev) : Dev :=
  forEach (igmpGroups d net) (fun g d =>
    if join then igmpChange net g noFilter (igmpFilter d net g) d else igmpChange net g (igmpFilter d net g) noFilter d) d

/-- RX stream `s` taken into service or out of it: what its groups' filters become is reported on the networks that run
(R289, R295). -/
def rxEnable (s : Nat) (en : Bool) (d : Dev) : Dev :=
  let d1 := wr d (rxEn s) (b2n en)
  forN 2 (fun net x =>
    let g := rxDst d s net
    if strmRunning d net && rxLeg d s net && isMulticast g then igmpChange net g (igmpFilter d net g) (igmpFilter d1 net g) x
    else x) d1

/-- An RX enable would be refused with BAD_STREAM (R283, R285, R295). -/
def rxBad (d : Dev) (s : Nat) : Bool :=
  rd d (rxPtime s) == 3 || decide (rd d (rxDepth s) < 1) || decide (8 < rd d (rxDepth s)) ||
  decide (rd d (rxDepth s) < rxFrames d s) || !(rxLeg d s 0 || rxLeg d s 1) ||
  (List.range 2).any (fun net => rxLeg d s net && (rxDst d s net == 0 || decide (mtuOf d net - 40 < rxPayload d s)))

/-- Leg `net` of TX stream `t` is enabled. -/
def txLeg (d : Dev) (t net : Nat) : Bool := flag d (if net = 0 then txLegA t else txLegB t)

/-- DST of a leg of TX stream `t`. -/
def txDst (d : Dev) (t net : Nat) : Nat := rd d (if net = 0 then txDstA t else txDstB t)

/-- A TX enable would be refused with BAD_STREAM (R283, R295). -/
def txBad (d : Dev) (t : Nat) : Bool :=
  rd d (txTtl t) == 0 || !(txLeg d t 0 || txLeg d t 1) ||
  (List.range 2).any (fun net => txLeg d t net && (txDst d t net == 0 || decide (mtuOf d net - 40 < txPayload d t)))

/-- Wire bytes of the enabled TX streams on a network (R293). -/
def wireBytes (d : Dev) (net : Nat) : Nat :=
  (((List.range 96).filter (fun t => flag d (txEn t) && txLeg d t net)).map (txWire d)).sum

/-- A committed stream enable or disable applies, or is refused (R293, R295). -/
def streamEnApply (tx : Bool) (s : Nat) (en : Bool) (d : Dev) : Dev :=
  if tx then
    if !en then wr d (txEn s) 0
    else if flag d (txEn s) then d
    else if txBad d s then captureErr (.strm 0) 0x0100 (s + 128) d
    else if (List.range 2).any (fun net => txLeg d s net && decide (10368 < wireBytes d net + txWire d s)) then
      captureErr (.strm 0) 0x0101 (s + 128) d
    else wr d (txEn s) 1
  else
    if !en then
      if flag d (rxEn s) then
        let d1 := rxEnable s false d
        { d1 with strm := { d1.strm with filed := d1.strm.filed.filter (fun f => f.1 / 4 % 128 != s) } }
      else d
    else if flag d (rxEn s) then d
    else if rxBad d s then captureErr (.strm 0) 0x0100 s d
    else rxEnable s true d

/-! ### Transmitting (R290 to R294, R27, R401, R402) -/

/-- The in-service outputs that bind slot `c` of TX stream `t` (R294). -/
def txBinders (outs : List (Nat × Nat)) (t c : Nat) : List Nat :=
  (outs.filter (fun o => entNetValid o.2 && entNetStream o.2 == t && entNetSlot o.2 == c)).map (fun o => o.1)

/-- The in-service outputs that bind slot `sl` of TDM port `k` (R294). -/
def tdmBinders (outs : List (Nat × Nat)) (k sl : Nat) : List Nat :=
  (outs.filter (fun o => entTdmValid o.2 && entTdmPort o.2 == k && entTdmSlot o.2 == sl)).map (fun o => o.1)

/-- The pairs of indices, the lower first, in a rising list. -/
def indexPairs : List Nat → List (Nat × Nat)
  | [] => []
  | x :: r => r.map (fun y => (x, y)) ++ indexPairs r

/-- The binding conflicts of a frame, each slot with the two entries that bind it: slots of TX streams, and of TDM ports
after them (R294). -/
def conflictsOf (outs : List (Nat × Nat)) : List (Nat × Nat × Nat) :=
  (outs.flatMap (fun o =>
    (if entNetValid o.2 then
      (indexPairs (txBinders outs (entNetStream o.2) (entNetSlot o.2))).map
        (fun p => (64 * entNetStream o.2 + entNetSlot o.2, p)) else []) ++
    (if entTdmValid o.2 then
      (indexPairs (tdmBinders outs (entTdmPort o.2) (entTdmSlot o.2))).map
        (fun p => (2 ^ 16 + 16 * entTdmPort o.2 + entTdmSlot o.2, p)) else []))).eraseDups

/-- A binding conflict is captured in the first frame in which its two bindings meet, with the higher index (R294). -/
def bindConflicts (outs : List (Nat × Nat)) (d : Dev) : Dev :=
  let now := conflictsOf outs
  let d1 := forEach (now.filter (fun c => !d.strm.conflicts.contains c)) (fun c d => captureErr (.strm 0) 0x0102 c.2.2 d) d
  { d1 with strm := { d1.strm with conflicts := now } }

/-- The 12-byte RTP header of TX stream `t` for frame `n` (R290). -/
def rtpHeader (d : Dev) (t n : Nat) : List Byte :=
  [0x80, BitVec.ofNat 8 (rd d (txPt t))] ++ beBytes 2 (n + rd d (txSeqOffset t)) ++
  beBytes 4 (nSamp d * (n + 3) + rd d (txRtpOffset t)) ++ beBytes 4 (rd d (txSsrc t))

/-- A sample as a packet carries it: L24 truncates (R282). -/
def wireSample (fmt : Nat) (w : W32) : List Byte := if fmt = 0 then beBytes 3 (w.toNat / 256) else beBytes 4 w.toNat

/-- The RTP header and payload of TX stream `t` for frame `n` (R282, R290, R294). -/
def txPacket (d : Dev) (outs : List (Nat × Nat)) (smp : Nat → List W32) (t n : Nat) : List Byte :=
  rtpHeader d t n ++ (List.range (nSamp d)).flatMap (fun j => (List.range (txChans d t)).flatMap (fun c =>
    wireSample (rd d (txFmt t)) (match txBinders outs t c with | x :: _ => nth (smp x) j 0 | [] => 0)))

/-- The checksum of a UDP datagram over IPv4 (R290): the complement of the sum, in ones' complement, of the 16-bit words of
the addresses, the protocol number 17, the length twice, the ports and the data; a sum of 0 is sent as 0xFFFF (PRESUMED, log
entry 135). -/
def udpChecksum (src dst : W32) (srcPort dstPort : Nat) (data : List Byte) : Nat :=
  let half (w : W32) : Nat := w.toNat / 2 ^ 16 + w.toNat % 2 ^ 16
  let body := (List.range ((data.length + 1) / 2)).map (fun i =>
    (nth data (2 * i) 0).toNat * 256 + (nth data (2 * i + 1) 0).toNat)
  let s := half src + half dst + 17 + 2 * (data.length + 8) + srcPort + dstPort + body.sum
  if s % 0xFFFF = 0 then 0xFFFF else 0xFFFF - s % 0xFFFF

/-- What stands before the RTP header of a packet of TX stream `t` on a network (R290, R292, R306). -/
def mediaHead (d : Dev) (net t : Nat) (rtp : List Byte) : MediaHead :=
  let src := pairAddr d net
  let dst := txDst d t net
  let mask := rd d (strmNetmask net)
  let near := isMulticast dst || dst &&& mask == src.ip.toNat &&& mask
  { src := src
    dst := BitVec.ofNat 32 dst
    hop := BitVec.ofNat 32 (if near then dst else rd d (strmGateway net))
    vlan := if flag d (strmVlanEn net) then some (rd d (strmPcp net) * 2 ^ 13 + rd d (strmVlanId net)) else none
    dontFragment := true
    ident := 0
    ttl := rd d (txTtl t)
    dscp := rd d (txDscp t)
    srcPort := rd d (txSrcPort t)
    dstPort := rd d (txDstPort t)
    checksum := udpChecksum src.ip (BitVec.ofNat 32 dst) (rd d (txSrcPort t)) (rd d (txDstPort t)) rtp }

/-- The word a TDM slot carries (R294, R296). -/
def tdmWord (outs : List (Nat × Nat)) (smp : Nat → List W32) (k sl j : Nat) : W32 :=
  match tdmBinders outs k sl with | x :: _ => nth (smp x) j 0 | [] => 0

/-- The TDM buffer key of a word of frame `n` (R25, R297). -/
def tdmKey (n k sl j : Nat) : Nat := ((n % 4 * 12 + k) * 16 + sl) * 16 + j

/-- The TDM buffers of frame `n` loaded (R25). -/
def loadTdm (outs : List (Nat × Nat)) (smp : Nat → List W32) (n : Nat) (d : Dev) : Dev :=
  { d with strm := { d.strm with tdmBuf := (List.range 12).foldl (fun t k => (List.range 16).foldl (fun t sl =>
    (List.range (nSamp d)).foldl (fun t j => tset (fun _ => 0) t (tdmKey n k sl j) (tdmWord outs smp k sl j)) t) t) d.strm.tdmBuf } }

/-! ### Other packets (R289, R292) -/

/-- IGMP_QUERY: the querier's version sets the mode, and every group joined is reported in it (R289). -/
def doIgmpQuery (net version : Nat) (d : Dev) : Dev :=
  if !strmRunning d net then d
  else
    let m := if version = 1 then 1 else if version = 2 then 2 else 3
    let d1 := wr d (strmIgmpMode net) m
    raiseEdge (.strm (Fin.ofNat 2 net)) 4 (rd d (strmIgmpMode net) != 3) (m != 3)
      (igmpNet true net d1)

/-- ARP_REQUEST: answered for the module's own address, and for the pair address by the sender alone (R292). -/
def doArpRequest (txActive : Nat → Bool) (net : Nat) (ip : W32) (d : Dev) : Dev :=
  if !strmRunning d net then d
  else if ip.toNat = rd d (strmPairIp net) && txActive net then
    sendNet (.arpReply net ip (rd d (strmPairMacLo net) + rd d (strmPairMacHi net) * 2 ^ 32)) d
  else if ip.toNat = rd d (strmIp net) then
    sendNet (.arpReply net ip (rd d (strmMacLo net) + rd d (strmMacHi net) * 2 ^ 32)) d
  else d

/-- SFP_LINK_CHANGE (R306). -/
def doSfpLinkChange (net : Nat) (up : Bool) (d : Dev) : Dev :=
  if flag d (strmLinkUp net) = up then d
  else raise (.strm (Fin.ofNat 2 net)) 0 (wr d (strmLinkUp net) (b2n up))

end Sys2Proof.Machine
end

