-- ==== Sys2Proof/Machine/Ptp.lean ====
section
/-! DEFINITION. Network time (R300 to R303, R307): the servo's states, its sources, the BMCA and steps. -/

namespace Sys2Proof.Machine

/-- PTP messages are processed (R307). -/
def ptpRunning (d : Dev) : Bool := flag d (hdrActive .ptp)

/-- `PTP.SEL` in force: the reserved value acts as AUTO (R19, R307). -/
def ptpSelOf (d : Dev) : Nat := if rd d ptpSel = 3 then 2 else rd d ptpSel

/-- A message of the domain that the module works in (R300, R307). -/
def inDomain (d : Dev) (domain : Byte) : Bool := domain.toNat == rd d ptpDomain

/-- The best Announce on a network, in the module's domain. -/
def ptpBest (d : Dev) (net : Nat) : Option Announce :=
  (tget (fun _ => none) d.ptp.best net).filter (fun a => inDomain d a.domain)

/-- What a PTP message that leaves carries: the module's own address and the domain (R292, R300). -/
def ptpHead (d : Dev) (net : Nat) (interval : Fld) : PtpHead :=
  { src := ownAddr d net, domain := BitVec.ofNat 8 (rd d ptpDomain), interval := BitVec.ofNat 8 (rd d interval) }

/-- The network whose instance the servo follows (R300). -/
def ptpNet (d : Dev) : Nat :=
  if ptpSelOf d = 0 then 0 else if ptpSelOf d = 1 then 1 else if (ptpBest d 0).isSome then 0 else 1

/-- The servo enters a state: logged, with its events, and leaving LOCKED counted (R301, R307). -/
def ptpEnter (st : Nat) (d : Dev) : Dev :=
  let old := rd d ptpState
  if old = st then d
  else
    let d1 := logUnnamed .ptp 0 1 (wr d ptpState st)
    let d2 := doIf (old == 2) (fun d => inc d ptpLockLossCount) d1
    let d3 := doIf (st == 2) (raise .ptp 0) d2
    doIf (st == 3) (raise .ptp 1) d3

/-- The servo goes into holdover (R300, R307). -/
def ptpHold (d : Dev) : Dev := ptpEnter 3 { d with ptp := { d.ptp with gm := false } }

/-- The twin's ticks are no longer to be had: from TWIN_FOLLOW the servo goes into holdover (R300). -/
def ptpUnfollow (d : Dev) : Dev := if rd d ptpState = 4 then ptpEnter 3 d else d

/-- The twin's ticks are the first source to be had: no grandmaster on the instance selected, and none of its own
(R300). -/
def ptpMayFollow (d : Dev) : Bool := ptpRunning d && (ptpBest d (ptpNet d)).isNone && !flag d ptpGmCapable

/-- A signed register value, saturating (R307). -/
def signed32 (v : Int) : Nat := ofSigned 32 (satSigned 32 v)

/-- PTP_SYNC_RX: a Sync of network `net` gives the filtered offset and the frequency correction of the servo
(R300 to R302). -/
def doPtpSyncRx (net : Nat) (domain : Byte) (offset freq : Int) (d : Dev) : Dev :=
  if !ptpRunning d || !inDomain d domain || ptpNet d ≠ net || d.ptp.gm then d
  else
    let f := max (-10000) (min 10000 freq)
    let streak := if offset.natAbs ≤ 100 then d.ptp.streak + 1 else 0
    let d1 := { d with ptp := { d.ptp with filt := offset, freq := f, streak := streak } }
    let d2 := wr (wr (wr d1 ptpOffsetNs (signed32 offset)) ptpFreqPpb (signed32 f)) ptpActiveNet net
    if d.ptp.running && decide (10000 < offset.natAbs) then ptpEnter 3 (raise .ptp 3 d2)
    else if rd d ptpState = 2 then (if 200 < offset.natAbs then ptpEnter 1 d2 else d2)
    else if 16 ≤ streak then ptpEnter 2 d2
    else ptpEnter 1 d2

/-- PTP_DELAY_REQ_TX: a Delay_Req leaves (R300). -/
def doPtpDelayReqTx (net : Nat) (d : Dev) : Dev :=
  if !ptpRunning d || !flag d (strmLinkUp net) || d.ptp.gm then d
  else sendNet (.ptpDelayReq net (ptpHead d net ptpLogDelayReq)) { d with ptp := { d.ptp with delayReq := tset (fun _ => false) d.ptp.delayReq net true } }

/-- PTP_DELAY_RESP_RX: the answer gives the mean path delay (R300). -/
def doPtpDelayRespRx (net : Nat) (domain : Byte) (delay : Int) (d : Dev) : Dev :=
  if ptpRunning d && inDomain d domain && tget (fun _ => false) d.ptp.delayReq net then
    { d with ptp := { d.ptp with delay := tset (fun _ => 0) d.ptp.delay net delay,
                                 delayReq := tset (fun _ => false) d.ptp.delayReq net false } }
  else d

/-- The order of the BMCA: lower values are better, from priority1 on (R303). -/
def bmcaKey (p1 cls acc var p2 id steps : Nat) : List Nat := [p1, cls, acc, var, p2, id, steps]

/-- Lexicographic order. -/
def lexLt : List Nat → List Nat → Bool
  | a :: r, b :: s => decide (a < b) || (a == b && lexLt r s)
  | _, _ => false

/-- The comparison key of an Announce. -/
def annKey (a : Announce) : List Nat :=
  bmcaKey a.priority1.toNat a.clockClass.toNat a.accuracy.toNat a.variance.toNat a.priority2.toNat a.gmId.toNat a.steps.toNat

/-- The comparison key of this module as a grandmaster (R303). -/
def ownKey (d : Dev) : List Nat :=
  bmcaKey (rd d ptpPriority1) (rd d ptpClockClass) Config.clockAccuracy.toNat Config.clockVariance.toNat
    (rd d ptpPriority2) Config.clockIdentity.toNat 0

/-- The grandmaster registers show the one followed; a change is an event and is logged (R301, R307). -/
def ptpGrandmaster (id : Word) (steps : Nat) (d : Dev) : Dev :=
  if rd64 d ptpGmIdLo ptpGmIdHi = id.toNat then wr d ptpStepsRemoved steps
  else logUnnamed .ptp 0 1 (raise .ptp 2 (wr (wr64 d ptpGmIdLo ptpGmIdHi id.toNat) ptpStepsRemoved steps))

/-- The source of time chosen anew (R300, R303): the grandmaster of the selected instance, this module if it is
capable and best, the twin's ticks, or holdover. -/
def ptpSelect (follow : Bool) (d : Dev) : Dev :=
  let net := ptpNet d
  match ptpBest d net with
  | some a =>
    if flag d ptpGmCapable && lexLt (ownKey d) (annKey a) then
      ptpGrandmaster Config.clockIdentity 0 (ptpEnter 5 { d with ptp := { d.ptp with gm := true } })
    else
      let d1 := ptpGrandmaster a.gmId (a.steps.toNat + 1) (wr { d with ptp := { d.ptp with gm := false } } ptpActiveNet net)
      if rd d1 ptpState = 2 ∨ rd d1 ptpState = 1 then d1
      else ptpEnter 1 { d1 with ptp := { d1.ptp with streak := 0 } }
  | none =>
    if flag d ptpGmCapable then
      ptpGrandmaster Config.clockIdentity 0 (ptpEnter 5 { d with ptp := { d.ptp with gm := true } })
    else
      let d1 := { d with ptp := { d.ptp with gm := false } }
      if follow then ptpEnter 4 d1 else if rd d ptpState = 0 then d1 else ptpEnter 3 d1

/-- PTP_ANNOUNCE_RX: the best master of a network, and the choice that follows (R300, R303). -/
def doPtpAnnounceRx (follow : Bool) (a : Announce) (d : Dev) : Dev :=
  if !ptpRunning d || !inDomain d a.domain then d
  else
    let take := match ptpBest d a.net.val with
      | none => true
      | some b => b.gmId == a.gmId || lexLt (annKey a) (annKey b)
    if take then ptpSelect follow
        { d with ptp := { d.ptp with best := tset (fun _ => none) d.ptp.best a.net.val (some a) } }
    else d

/-- PTP_ANNOUNCE_TIMEOUT: a network has lost its grandmaster (R300, R303). -/
def doPtpAnnounceTimeout (follow : Bool) (net : Nat) (d : Dev) : Dev :=
  if !ptpRunning d then d
  else ptpSelect follow { d with ptp := { d.ptp with best := tset (fun _ => none) d.ptp.best net none } }

/-- The Announce of this module as grandmaster (R303). -/
def ownAnnounce (d : Dev) (net : Nat) : Announce :=
  { net := Fin.ofNat 2 net, domain := BitVec.ofNat 8 (rd d ptpDomain), priority1 := BitVec.ofNat 8 (rd d ptpPriority1),
    clockClass := BitVec.ofNat 8 (rd d ptpClockClass), accuracy := Config.clockAccuracy, variance := Config.clockVariance,
    priority2 := BitVec.ofNat 8 (rd d ptpPriority2), gmId := Config.clockIdentity, steps := 0 }

/-- PTP_SYNC_TX: the grandmaster sends Announce and two-step Sync (R303). -/
def doPtpSyncTx (net : Nat) (d : Dev) : Dev :=
  if ptpRunning d && d.ptp.gm && flag d (strmLinkUp net) then
    sendNet (.ptpSync net (ptpHead d net ptpLogSync) (ptpNs d)) (sendNet (.ptpAnnounce net (ptpHead d net ptpLogAnnounce) (ownAnnounce d net))
      { d with ptp := { d.ptp with syncSeq := tset (fun _ => 0) d.ptp.syncSeq net (tget (fun _ => 0) d.ptp.syncSeq net + 1) } })
  else d

/-- PTP_HOLDOVER_EXPIRE: holdover ends in free run at nominal frequency (R300). -/
def doPtpHoldoverExpire (d : Dev) : Dev :=
  if rd d ptpState = 3 then
    ptpEnter 0 (wr { d with ptp := { d.ptp with freq := 0 } } ptpFreqPpb 0)
  else d

/-- The frame number jumps, and with it the frame that the red LED counts its 10 s from (R302, R456). -/
def stepTime (frame : Word) (d : Dev) : Dev :=
  let log := { d.log with crimson := d.log.crimson.map (fun f => f + (frame - d.clk.frame)) }
  { d with clk := { d.clk with frame := frame }, log := log }

/-- The time stepped by an offset (the module's time less the master's), at a tick: the frame number jumps and
every filed sample is discarded (R302). -/
def ptpStepApply (offset : Int) (d : Dev) : Dev :=
  let ns := (d.clk.frame.toNat * 125000 : Nat) - offset
  let d1 := stepTime (BitVec.ofInt 64 (ns.fdiv 125000)) d
  inc { d1 with strm := { d1.strm with filed := [] } } ptpStepCount

/-- A step takes effect as a control change: the next tick applies it (R302, R307). -/
def ptpStepCommit (offset : Int) (d : Dev) : Dev := { d with ptp := { d.ptp with steps := d.ptp.steps ++ [offset] } }

/-- The steps committed at the last commit point are applied at this tick, after its changes, which were sealed under the frame
number before the jump (R302, R400; DEDUCED, log entry 168). -/
def ptpStepTick (steps : List Int) (d : Dev) : Dev := forEach steps ptpStepApply d

/-- PTP_INITIAL_STEP: before the first frame after start-up the time is set to the grandmaster's (R302). -/
def doPtpInitialStep (ns : Word) (d : Dev) : Dev :=
  if d.ptp.running then d
  else
    let d1 := stepTime (BitVec.ofNat 64 (ns.toNat / 125000)) d
    inc { d1 with clk := { d1.clk with cycle := 0 }, ptp := { d1.ptp with stepped := true } } ptpStepCount

/-- PTP.STEP_REQ written: a control change; the module that numbers it puts in the offset it measured (R302, R400). -/
def doStepReqWrite (st : TwinState) (ini : Initiator) (d : Dev) : Dev := submit st ini (.ptpStep 0) none d

end Sys2Proof.Machine
end

