-- ==== Sys2Proof/Machine/Real.lean ====
section
/-! DEFINITION. Binary64 and binary32 values as SUP and WEAR compute with them (R318, R356): bit patterns, rounded to
nearest even. -/

namespace Sys2Proof.Machine

/-- The binary64 format. -/
def b64 : Fmt := fmtOf true
/-- The binary32 format. -/
def b32 : Fmt := fmtOf false

/-- A binary64 bit pattern as a word. -/
def w64 (n : Nat) : Word := BitVec.ofNat 64 n

/-- Sum. -/
def fadd (a b : Word) : Word := w64 (fpAdd b64 0 (unpack b64 a.toNat) (unpack b64 b.toNat)).1
/-- Difference. -/
def fsub (a b : Word) : Word := w64 (fpAdd b64 0 (unpack b64 a.toNat) (unpack b64 b.toNat).neg).1
/-- Product. -/
def fmul (a b : Word) : Word := w64 (fpMul b64 0 (unpack b64 a.toNat) (unpack b64 b.toNat)).1
/-- Quotient. -/
def fdiv (a b : Word) : Word := w64 (fpDiv b64 0 (unpack b64 a.toNat) (unpack b64 b.toNat)).1
/-- Square root. -/
def fsqrt (a : Word) : Word := w64 (fpSqrt b64 0 (unpack b64 a.toNat)).1
/-- An integer, or `n × 2^e`. -/
def fint (n : Int) (e : Int := 0) : Word := w64 (fpOfInt b64 0 n e).1
/-- `n ÷ m` rounded once. -/
def frat (n : Int) (m : Nat) : Word := fdiv (fint n) (fint m)
/-- Less than; false with a NaN. -/
def flt (a b : Word) : Bool := (fpCompare 1 (unpack b64 a.toNat) (unpack b64 b.toNat)).1 == 1
/-- Less than or equal; false with a NaN. -/
def fle (a b : Word) : Bool := (fpCompare 2 (unpack b64 a.toNat) (unpack b64 b.toNat)).1 == 1
/-- Equal. -/
def feq (a b : Word) : Bool := (fpCompare 0 (unpack b64 a.toNat) (unpack b64 b.toNat)).1 == 1
/-- The sign bit cleared. -/
def fabs (a : Word) : Word := a &&& 0x7FFFFFFFFFFFFFFF
/-- Neither infinite nor a NaN. -/
def fineb64 (a : Word) : Bool := decide (a.toNat % 2 ^ 63 < b64.infBits)

/-- A binary32 pattern widened. -/
def widen (n : Nat) : Word := w64 (fpToFmt b64 0 (unpack b32 (n % 2 ^ 32))).1
/-- A binary64 value rounded to binary32. -/
def narrow (a : Word) : Nat := (fpToFmt b32 0 (unpack b64 a.toNat)).1
/-- A binary32 pattern that is finite. -/
def fin32 (n : Nat) : Bool := decide (n % 2 ^ 31 < b32.infBits)
/-- A binary32 pattern that is finite and positive. -/
def pos32 (n : Nat) : Bool := decide (0 < n ∧ n < b32.infBits)
/-- A binary32 pattern that is finite and not negative; −0 counts. -/
def nonneg32 (n : Nat) : Bool := decide (n < b32.infBits) || n == 2 ^ 31
/-- +∞ in binary32. -/
def inf32 : Nat := b32.infBits
/-- The canonical NaN in binary32 (R155). -/
def nan32 : Nat := b32.nan

/-! ### Exponentials and angles (R318, R327, R356)

They are formed in fixed point, 200 bits after the point, by the power series with its terms taken from the last to the
first, and rounded once to nearest even. -/

/-- The value 1. -/
def fixOne : Nat := 2 ^ 200
/-- ln 2. -/
def fixLn2 : Nat := 0xB17217F7D1CF79ABC9E3B39803F2F6AF40F343267298B62D8A
/-- ln 10. -/
def fixLn10 : Nat := 0x24D763776AAA2B05BA95B58AE0B4C28A38A3FB3E76977E43A0F
/-- π. -/
def fixPi : Nat := 0x3243F6A8885A308D313198A2E03707344A4093822299F31D008

/-- The first terms of exp x from the `k`-th on, over the one before it: 1 + x÷k × (1 + x÷(k+1) × …). -/
def expTail (x : Nat) : Nat → Nat → Nat
  | 0, _ => fixOne
  | n + 1, k => fixOne + x * expTail x n (k + 1) / (k * fixOne)

/-- exp of a fixed-point value. -/
def expFix (x : Int) : Word :=
  let n := x.fdiv fixLn2
  w64 (roundPack b64 0 false (expTail (x - n * fixLn2).toNat 60 1) (n - 200)).1

/-- The alternating terms of sine and cosine: 1 − x²÷(k(k+1)) × (1 − x²÷((k+2)(k+3)) × …). -/
def arcTail (x2 : Nat) : Nat → Nat → Nat
  | 0, _ => fixOne
  | n + 1, k => fixOne - x2 * arcTail x2 n (k + 2) / (k * (k + 1) * fixOne)

/-- A fixed-point value with a sign, in binary64. -/
def fixWord (neg : Bool) (m : Nat) : Word := w64 (roundPack b64 0 (neg && m != 0) m (-200)).1

/-- The cosine and sine of `a` `b`-ths of a turn, each rounded once, by the symmetries of the eight parts of a turn. -/
def turn (a b : Nat) : Word × Word :=
  let t := 8 * (a % b)
  let o := t / b
  let x := fixPi * (if o % 2 = 0 then t - o * b else (o + 1) * b - t) / (4 * b)
  let c := arcTail (x * x / fixOne) 30 1
  let s := x * arcTail (x * x / fixOne) 30 2 / fixOne
  let swap := o % 4 == 1 || o % 4 == 2
  (fixWord (decide (2 ≤ o ∧ o < 6)) (if swap then s else c), fixWord (decide (4 ≤ o)) (if swap then c else s))

/-- A finite binary64 value in fixed point, held within ±2^12. -/
def toFix (a : Word) : Int :=
  match unpack b64 a.toNat with
  | .fin s m e =>
    let v : Int := ((if 12 < e + bitLen m then 2 ^ 212 else roundToZero m (e + 200) : Nat))
    if s then -v else v
  | .inf s => if s then -2 ^ 212 else 2 ^ 212
  | .nan _ => 0
where
  /-- `m × 2^e` without its fraction. -/
  roundToZero (m : Nat) (e : Int) : Nat := if 0 ≤ e then m * 2 ^ e.toNat else m / 2 ^ (-e).toNat

/-- A NaN stays one; any other value goes through `f`. -/
def ofReal (f : Int → Word) (a : Word) : Word := if (unpack b64 a.toNat).isNan then w64 b64.nan else f (toFix a)

/-- exp in binary64 (R356). -/
def fexp (a : Word) : Word := ofReal expFix a

/-- 2^x in binary64 (R356). -/
def fexp2 (a : Word) : Word := ofReal (fun x => expFix (x * fixLn2 / (fixOne : Int))) a

/-- The amplitude of a level of `l` in Q8.8 dB and `ofs` dB more, full scale 1.0: ten to the power of a twentieth of it
(R311, R326). -/
def dbAmp (l : Nat) (ofs : Int) : Word := expFix ((toSigned 16 l + 256 * ofs) * fixLn10 / 5120)

/-- 2π in binary64 (R328). -/
def twoPi : Word := fixWord false (2 * fixPi)

/-- |x + jy|. -/
def hypot (x y : Word) : Word := fsqrt (fadd (fmul x x) (fmul y y))

/-- The sum of binary64 values in order, from 0. -/
def fsum (l : List Word) : Word := l.foldl fadd 0

/-- The greatest of binary64 values, 0 of none. -/
def fmaxOf : List Word → Word
  | [] => 0
  | a :: l => l.foldl (fun m x => if flt m x then x else m) a

/-- GAIN of an applied derating in Q8.8 dB (R359): the greatest g of 31 bits with (g ÷ 2³¹)^5120 at most 10^(−A). -/
def gainBits (a : Nat) : Nat → Nat → Nat
  | 0, g => g
  | i + 1, g => if (g + 2 ^ i) ^ 5120 * 10 ^ a ≤ 2 ^ (31 * 5120) then gainBits a i (g + 2 ^ i) else gainBits a i g

/-- GAIN of a line record (R359). -/
def wearGain (a : Nat) : Nat := gainBits a 31 0

end Sys2Proof.Machine
end

