-- ==== Sys2Proof/Machine/Sup.lean ====
section
/-! DEFINITION. The line supervision engine (R309 to R341): the probe, correlation windows, the impedance estimate,
fault decisions, the night sweep and baselines. -/

namespace Sys2Proof.Machine

/-! ### Settings in force (R19, R341) -/

/-- A value inside its range, or the reset value. -/
def inRange (lo hi x reset : Nat) : Nat := if lo ≤ x ∧ x ≤ hi then x else reset

/-- L in percent (R322). -/
def supLimit (d : Dev) : Nat := inRange 5 50 (rd d supLimitPct) 15
/-- F (R322). -/
def supFaults (d : Dev) : Nat := inRange 1 24 (rd d supFaultBands) 3
/-- MIN_BANDS (R322). -/
def supMin (d : Dev) : Nat := inRange 1 24 (rd d supMinBands) 6
/-- PERSIST (R323). -/
def supPersistN (d : Dev) : Nat := inRange 1 15 (rd d supPersist) 2
/-- CAP_LIMIT_PCT (R328). -/
def supCapLimit (d : Dev) : Nat := inRange 1 50 (rd d supCapLimitPct) 10

/-! ### Lines -/

/-- A line the engine holds nothing of; the white sequence starts at 1 (DESIGN CHOICE, log entry 30). -/
def SupLine.reset : SupLine :=
  { on := false, level := [], lfsr := 1, probe := [], past := [], win := none, ended := none, est := none, run := 0,
    candBands := none, candNight := [], sweep := none, fade := none, nightSet := none }

/-- The engine's state of line `k`. -/
def supLine (d : Dev) (k : Nat) : SupLine := tget (fun _ => SupLine.reset) d.sup.lines k

/-- The engine's state of line `k` changed. -/
def onSup (k : Nat) (f : SupLine → SupLine) (d : Dev) : Dev :=
  { d with sup := { d.sup with lines := tset (fun _ => SupLine.reset) d.sup.lines k (f (supLine d k)) } }

/-- The engine works, or finishes the frame period in which it was disabled (R340). -/
def supRunning (d : Dev) : Bool := flag d (hdrActive .sup) || flag d (hdrQuiescing .sup)

/-- Ok and Sk are both in service (R73). -/
def lineUp (d : Dev) (k : Nat) : Bool := inService (entryNow d k) && inService (entryNow d (320 + k))

/-- Line `k` is supervised, whether or not the engine works. -/
def lineSup (d : Dev) (k : Nat) : Bool := lineUp d k && entSupEn (entryNow d k)

/-- Line `k` is supervised by a working engine. -/
def supervised (d : Dev) (k : Nat) : Bool := supRunning d && lineSup d k

/-- The route word of output `k` for the frame being computed (R71). -/
def outRoute (d : Dev) (k : Nat) : Nat := bits (entWord (entryNow d k) 0x20) 63 0

/-- The route word of output `k` carries EMERGENCY (R71). -/
def emergency (d : Dev) (k : Nat) : Bool := bit (outRoute d k) 15

/-- A sense word's voltage and current units: bits [31:16] and [15:0], each signed (R282). -/
def senseUnits (w : Nat) : Int × Int := (toSigned 16 (w / 65536), toSigned 16 w)

/-- The sense samples of line `k` in the input buffer, none where concealed (R288). -/
def senseFrame (d : Dev) (k : Nat) : Option (List (Int × Int)) :=
  let base := rd d (strmInBase 0) * 256 + 64 * (128 + k)
  if bit (rdN d (base + 48) 4) 0 then none
  else some ((List.range (nSamp d)).map (fun i => senseUnits (rdN d (base + 4 * i) 4)))

/-- A window is abandoned (R316). -/
def supAbandon (k : Nat) (d : Dev) : Dev :=
  if (supLine d k).win.isSome then inc (onSup k (fun l => { l with win := none }) d) supAbandonCount else d

/-! ### The night tone (R325, R326) -/

/-- Frames of a group (R325). -/
def groupLen (d : Dev) : Nat := if is48 d then 1600 else 4160
/-- Steps of a sweep (R325). -/
def sweepSteps (d : Dev) : Nat := if is48 d then 6 else 16
/-- Tone frequency of a step (R325). -/
def stepFreq (d : Dev) (s : Nat) : Nat := if is48 d then 21000 + 500 * s else 22000 + 1200 * s
/-- Samples in a second. -/
def rateOf (d : Dev) : Nat := if is48 d then 48000 else 96000
/-- NIGHT_LEN in force: less than eight groups is a reserved encoding (R325). -/
def nightLen (d : Dev) (len : Nat) : Nat := if len < 8 * groupLen d then 480000 else len

/-- Frames of the sweeping group before frame `n`. -/
def groupFrame (d : Dev) (n : Nat) : Nat :=
  match d.sup.night with
  | some w => n - (w.frame.toNat + groupLen d * w.group.getD 0)
  | none => 0

/-- The tone's frequency in frame `o` of its group (R325). -/
def toneFreq (d : Dev) (o : Nat) : Nat :=
  if o < 64 then Config.levelFreq (is48 d) else stepFreq d ((o - 64) / 256)

/-- How far the tone's phase moves in `x` samples. -/
def phaseRun (d : Dev) (freq x : Nat) : W32 := BitVec.ofNat 32 (x * (Config.toneStep freq (rateOf d)).toNat)

/-- How far the tone's phase has moved from the group's first sample to that of its frame `o`: it is continuous across the
steps (R326). -/
def groupPhase (d : Dev) (o : Nat) : W32 :=
  phaseRun d (Config.levelFreq (is48 d)) (nSamp d * min o 64) +
  ((List.range (sweepSteps d)).map (fun s => phaseRun d (stepFreq d s) (nSamp d * min 256 (o - (64 + 256 * s))))).sum

/-- A sample of a tone in Q1.31: the table's value at the phase, its upper 12 bits the entry and its lower 20 the place between two
entries, scaled to the amplitude, and to the twelfths that a fade leaves of it, 12 when none runs (R326, R346). What does not fit
Q1.31 is rounded down or up (free, log entry 177). -/
def toneSample (level : Word) (phase : W32) (fade : Nat) : Int :=
  let i := phase.toNat / 2 ^ 20
  let f := phase.toNat % 2 ^ 20
  let t (k : Nat) : Int := toSigned 32 (Config.toneTable (k % 4096)).toNat
  let v := t i * (2 ^ 20 - f : Nat) + t (i + 1) * f
  let x := toFix level * v * fade
  let unit : Int := 12 * 2 ^ 220
  x / unit + (if x % unit ≠ 0 && Config.toneUp level v fade then 1 else 0)

/-- The tone's amplitude on line `k` in frame `o` of its group: SWEEP_LEVEL − 20 dB in the level-setting frames, then as set
(R326). -/
def toneLevel (d : Dev) (k : Nat) (s : NightLine) (o : Nat) : Word :=
  if o < 64 then dbAmp (rd d (supSweepLevel k)) (-20) else s.level

/-- The tone of line `k` stops in the present output frame, with its fade (R326, R329). -/
def stopTone (d : Dev) (k : Nat) (overload incomplete : Bool) (l : SupLine) : SupLine :=
  match l.sweep with
  | none => l
  | some s =>
    let n := (workFrame d).toNat
    let o := groupFrame d n
    { l with
      sweep := some { s with
        playing := false, overload := s.overload || overload, incomplete := s.incomplete || incomplete }
      fade := if s.playing then
          some { first := n, phase := d.sup.phase + groupPhase d o, freq := toneFreq d o, level := toneLevel d k s o }
        else l.fade }

/-- The tone plays on line `k`. -/
def tonePlays (d : Dev) (k : Nat) : Bool := ((supLine d k).sweep.map (fun s => s.playing)).getD false

/-- The night tone's sample `i` of the present output frame on line `k` (R326): a fade of `x` twelfths ends each group in its
last 12 samples, and any stop (where the group's own fade lies is a DESIGN CHOICE, log entry 141). -/
def nightSample (d : Dev) (k i : Nat) : Int :=
  let l := supLine d k
  let n := (workFrame d).toNat
  match l.sweep, l.fade with
  | some s, f =>
    if s.playing then
      let o := groupFrame d n
      toneSample (toneLevel d k s o) (d.sup.phase + groupPhase d o + phaseRun d (toneFreq d o) i)
        (min 12 (nSamp d * (groupLen d - o) - i - 1))
    else faded n f
  | none, f => faded n f
where
  /-- The sample of a tone that was stopped. -/
  faded (n : Nat) : Option ToneFade → Int
    | some f =>
      let x := nSamp d * (n - f.first) + i
      if f.first ≤ n ∧ x < 12 then toneSample f.level (f.phase + phaseRun d f.freq x) (11 - x) else 0
    | none => 0

/-- A line's declared state changes, with its record (R323). -/
def supDeclare (k new counted high low devMax seqno : Nat) (fr : Word) (d : Dev) : Dev :=
  let old := rd d (supDeclared k)
  if old = new then d
  else
    let sev := if new = 0 then 0 else if new = 3 ∨ new = 4 then 2 else 1
    raise .sup 0 (logAt fr 0x4001 0 sev
      [(2, k), (2, old), (2, new), (4, counted), (4, high), (4, low), (4, devMax)] seqno (wr d (supDeclared k) new))

/-- A line that is not supervised: what was under way ends, and it is declared OFF (R316, R323, R329). -/
def supLeave (k : Nat) (d : Dev) : Dev :=
  let d1 := if (supLine d k).on then
      onSup k (fun l => { stopTone d k false (tonePlays d k) l with on := false, run := 0, past := [] }) (supAbandon k d)
    else d
  supDeclare k 7 0 0 0 0 0 (workFrame d) d1

/-- Frames of an accumulation window (R316). -/
def winLen (acc : Nat) : Nat := 1024 * 2 ^ acc

/-- The rms of voltage units in volts (R326). -/
def rmsVolts (d : Dev) (k : Nat) (vs : List Int) : Word :=
  fmul (fsqrt (frat ((vs.map (fun v => v * v)).sum) (max 1 vs.length))) (widen (rd d (supVScale k)))

/-- Sense frame `m` of a step shows more than 2.0 V rms on a line whose tone plays (R326). -/
def overLevel (d : Dev) (k m : Nat) (fr : Option (List (Int × Int))) : Bool :=
  tonePlays d k && decide (64 ≤ groupFrame d m) &&
    (match fr with | some l => flt (fint 2) (rmsVolts d k (l.map (fun x => x.1))) | none => false)

/-- The night window that runs, by its first frame. -/
def nightNow (d : Dev) : Option Word := if flag d supNightActive then d.sup.night.map (fun w => w.frame) else none

/-- Sense frames kept for the filters (R314; DESIGN CHOICE, log entry 137). -/
def pastFrames : Nat := 1024

/-- A line's window at sense frame `m`: the one in progress, or the one that begins (R316). -/
def winAt (d : Dev) (m acc : Nat) (l : SupLine) : Option SupWin :=
  match l.win with
  | some w => some w
  | none => if m % winLen acc = 0 then
      some { j := m / winLen acc, acc := acc, sense := [], loud := 0, heat := [], night := nightNow d, before := l.past }
    else none

/-- Sense frame `m` of line `k` enters its window and its night measurement (R315, R316, R327); a level over 2 V stops the
line's tone (R326). -/
def supSenseLine (m k : Nat) (d0 : Dev) : Dev :=
  if !supRunning d0 then d0
  else if !lineSup d0 k then supLeave k d0
  else
    let d := onSup k (fun l => if l.on then l else { l with on := true, level := [], run := 0 }) d0
    let acc := entAccSel (entryNow d k)
    let d1 := if ((supLine d k).win.map (fun w => w.acc != acc)).getD false then supAbandon k d else d
    let fr := senseFrame d1 k
    let d2 := onSup k (fun l => { l with
      win := (winAt d1 m acc l).map (fun w => { w with
        sense := fr :: w.sense, night := if w.night = nightNow d1 then w.night else none })
      past := (fr :: l.past).take pastFrames
      sweep := l.sweep.map (fun s => { s with sense := (m, fr) :: s.sense }) }) d1
    if overLevel d2 k m fr then onSup k (stopTone d2 k true false) d2 else d2

/-- Every line's sense frame at the tick that closes it. -/
def supSense (d : Dev) : Dev :=
  forN 192 (supSenseLine (workFrame d).toNat) d

/-! ### The probe (R309 to R313) -/

/-- The sum of two Q8.8 values, saturating (R311). -/
def sat16 (x : Int) : Int := satSigned 16 x

/-- The applied level after a frame (R311), as signed Q8.8. -/
def nextLevel (t hear ofs a cap : Int) (margin : Nat) : Int :=
  let e := max (min t 0) (sat16 (hear + ofs))
  let l := min (sat16 (e - 256 * margin)) cap
  if l ≤ a then l else min l (sat16 (a + 256))

/-- The applied level of band `b` as signed Q8.8. -/
def levelOf (l : SupLine) (b : Nat) : Int := toSigned 16 (tget (fun _ => 0x8000) l.level b)

/-- A band whose applied level is below −120 dBFS carries no probe (R311). -/
def silentBand (l : SupLine) (b : Nat) : Bool := decide (levelOf l b < -30720)

/-- One step of the white sequence's register (R312). -/
def lfsrStep (r : W32) : W32 := if bit r.toNat 0 then (r >>> 1) ^^^ 0x80200003 else r >>> 1

/-- `n` samples of the white sequence, and the register after them (R312). -/
def lfsrRun : Nat → W32 → List Int × W32
  | 0, r => ([], r)
  | n + 1, r =>
    let x := lfsrRun n (lfsrStep r)
    ((if bit r.toNat 0 then 1 else -1) :: x.1, x.2)

/-- The register as a window reseeds it (R312). -/
def lfsrSeed (j k : Nat) : W32 :=
  let v := ((192 * j + k) * 0x00010DCD + 0x2545F491) % 2 ^ 32
  if v = 0 then 1 else BitVec.ofNat 32 v

/-- Address of the level record of line `k` (R309). -/
def levelAddr (d : Dev) (k : Nat) : Nat := rd d supLevelBase * 256 + 64 * k

/-- The level record of line `k` lies where memory answers, and can be read there (R341). -/
def levelHeld (d : Dev) (k : Nat) : Bool :=
  inRam (levelAddr d k) && inRam (levelAddr d k + 63) && !eccHit d (levelAddr d k) 64 && !fenced d (levelAddr d k) 64

/-- The level record of line `k` is stale for frame `n`: out of date, of a pair that is not complete, or unreadable
(R310, R341). -/
def levelStale (d : Dev) (n k : Nat) : Bool :=
  !levelHeld d k || rdN d (levelAddr d k) 4 != n % 2 ^ 32 ||
  (match ownerPair d (entSkein (entryNow d k)) with
   | some p => !bit (rd d chtDoneStatus) p
   | none => true)

/-- The level record of line `k` is read and applied for frame `n` (R310 to R313); its window notes which bands
carried a probe, and ends with its last frame (R316, R318). -/
def supLevelLine (n k : Nat) (d : Dev) : Dev :=
  let acc := entAccSel (entryNow d k)
  let l0 := supLine d k
  let reg := if n % winLen acc = 0 then lfsrSeed (n / winLen acc) k else l0.lfsr
  let run := lfsrRun (nSamp d) reg
  let put (heard : Bool) (l : SupLine) : List (Nat × Bool × List Int) := ((n, heard, run.1) :: l.probe).take 264192
  if !l0.on then onSup k (fun l => { l with lfsr := run.2, probe := put false l }) d
  else
    let stale := levelStale d n k
    let margin := entMargin (entryNow d k)
    let lev := fun b => nextLevel (toSigned 16 (rdN d (levelAddr d k + 8 + 2 * b) 2)) (toSigned 16 (rd d (supHear b)))
      (toSigned 16 (rd d (supHearOfs k))) (levelOf l0 b) (toSigned 16 (rd d supProbeCap)) margin
    let level := if stale then l0.level
      else (List.range 24).foldl (fun t b => tset (fun _ => 0x8000) t b (ofSigned 16 (lev b))) l0.level
    let d0 := if levelHeld d k then d else captureErr .sup 0x0103 k d
    let d1 := if stale then raise .sup 2 (inc d0 supProbeStaleCount) else d0
    let d2 := if stale then { d1 with sup := { d1.sup with stale := d1.sup.stale ++ [k] } } else d1
    onSup k (fun l =>
      let l1 := { l with level := level, lfsr := run.2, probe := put true l }
      match l1.win with
      | none => l1
      | some w =>
        let loud := (List.range 24).foldl (fun m b => if silentBand l1 b then m else putBit m b true) w.loud
        let w1 := { w with loud := loud }
        if w1.sense.length = winLen w1.acc then { l1 with win := none, ended := some w1 } else { l1 with win := some w1 }) d2

/-- SUP reads every level record at frame cycle 108,032 (R74, R310). -/
def supLevelRead (d : Dev) : Dev :=
  if supRunning d then
    let d1 := readLines d
    forN 192 (supLevelLine (workFrame d).toNat) { d1 with sup := { d1.sup with stale := [] } }
  else d

/-- Whether the samples sent of output frame `n` on the supervised lines `ks` carried the probe: w counts as zero for a frame
that was concealed (R313). -/
def probeHeard (heard : Bool) (n : Nat) (ks : List Nat) (d : Dev) : Dev :=
  forEach ks (fun k d => if (supLine d k).on then
    onSup k (fun l => { l with probe := l.probe.map (fun f => if f.1 = n then (n, heard, f.2.2) else f) }) d else d) d

/-- ΔT and U that WEAR published for a frame enter the line's window (R320). -/
def supHeat (heat : Nat → Option (Nat × Nat)) (d : Dev) : Dev :=
  forN 192 (fun k d => if (supLine d k).win.isSome then
    onSup k (fun l => { l with win := l.win.map (fun w => { w with heat := heat k :: w.heat }) }) d else d) d

/-- The probe's sample `i` of the present output frame (R312). -/
def probeSample (d : Dev) (k i : Nat) : Int :=
  let l := supLine d k
  if !l.on || d.sup.stale.contains k then 0
  else
    match l.probe with
    | [] => 0
    | (_, _, w) :: past =>
      let hist := (w.take (i + 1)).reverse ++ past.flatMap (fun f => f.2.2.reverse)
      ((List.range 24).map (fun b => if silentBand l b then 0
        else Config.bandProbe (is48 d) b (BitVec.ofNat 16 (tget (fun _ => 0x8000) l.level b)) hist)).sum

/-! ### The night window (R324 to R329) -/

/-- NIGHT_START at its commit point (R324, R338). -/
def nightStartApply (frame : Word) (len groups : Nat) (d : Dev) : Dev :=
  if frame.toNat ≤ (workFrame d).toNat + 1 then captureErr .sup 0x0100 0 d
  else if d.sup.night.isSome then captureErr .sup 0x0101 0 d
  else
    let w : NightWin :=
      { frame := frame, len := nightLen d len, groups := groups, group := none, begun := [], swept := 0, flagged := 0 }
    wr { d with sup := { d.sup with night := some w } } supNightArmed 1

/-- The period of output frame `f` (its samples are sent in it), or the next up to the instant at which that one's are
sent. -/
def atFrame (d : Dev) (f : Nat) : Bool :=
  (workFrame d).toNat == f || ((workFrame d).toNat == f + 1 && decide (d.clk.cycle ≤ 109568))

/-- The sense sample with sense index `x` of a sweeping line, where one was received. -/
def sweepSense (d : Dev) (s : NightLine) (x : Nat) : Option (Int × Int) :=
  match s.sense.find? (fun f => f.1 == x / nSamp d) with
  | some (_, some l) => some (nth l (x % nSamp d) (0, 0))
  | _ => none

/-- The samples of a sweeping line at probe indices `lo` to `hi` after frame `o` of its group (R326, R327). -/
def sweepSpan (d : Dev) (k : Nat) (s : NightLine) (b o lo hi : Nat) : List (Option (Int × Int)) :=
  (List.range (hi + 1 - lo)).map (fun i => sweepSense d s (nSamp d * (b + o) + lo + i + rd d (supBulkDelay k)))

/-- The lines of the group in its sweep frames, and that group's first frame. -/
def sweeping (d : Dev) (g : Nat) : Option (Nat × List Nat) :=
  match d.sup.night with
  | some w =>
    if w.group = some g then
      some (w.frame.toNat + groupLen d * g,
        ((List.range 24).map (fun i => 24 * g + i)).filter (fun k => (supLine d k).sweep.isSome))
    else none
  | none => none

/-- The tone's amplitude from V_m: the lesser of SWEEP_LEVEL and what brings the line to 1.7825 V from SWEEP_LEVEL − 20 dB; a
V_m of zero gives SWEEP_LEVEL (R326). -/
def setLevel (sw : Nat) (vm : Word) : Word :=
  let top := dbAmp sw 0
  let x := fmul (dbAmp sw (-20)) (fdiv (frat 17825 10000) vm)
  if feq vm 0 then top else if flt x top then x else top

/-- NIGHT_LEVEL_SET: V_m is measured and the tone's level set, as the level-setting frames end (R326). -/
def doNightLevelSet (g : Nat) (d : Dev) : Dev :=
  match sweeping d g with
  | none => d
  | some (b, ls) =>
    if !atFrame d (b + 63) then d
    else forEach ls (fun k d => onSup k (fun l => { l with sweep := l.sweep.map (fun s =>
      let span := (sweepSpan d k s b 0 (if is48 d then 144 else 288) (if is48 d then 287 else 575)).filterMap id
      { s with level := setLevel (rd d (supSweepLevel k)) (rmsVolts d k (span.map (fun x => x.1))) }) }) d) d

/-- √2 in binary64. -/
def root2 : Word := fsqrt (fint 2)

/-- The phasor of a signal at `freq` Hz: its sums with the cosine and the sine, in order, as an rms value; the phase is
counted from the first sample (R327; the scale is a DESIGN CHOICE, log entry 139). -/
def phasor (freq rate : Nat) (l : List Int) : Word × Word :=
  let sums := (l.foldl (fun (a : Nat × Word × Word) x =>
    let t := turn (freq * a.1) rate
    (a.1 + 1, fadd a.2.1 (fmul (fint x) t.1), fsub a.2.2 (fmul (fint x) t.2))) (0, 0, 0)).2
  let scale (s : Word) : Word := fmul (fdiv s (fint l.length)) root2
  (scale sums.1, scale sums.2)

/-- A step of a line is measured, once (R327). -/
def stepLine (b step k : Nat) (d : Dev) : Dev :=
  onSup k (fun l => match l.sweep with
    | none => l
    | some s =>
      if !s.playing || s.steps.any (fun e => e.1 == step) then l
      else if rd d (supBulkDelay k) > (if is48 d then 144 else 192) then
        { l with sweep := some { s with incomplete := true } }
      else
        let span := sweepSpan d k s b (64 + 256 * step) (if is48 d then 240 else 480) (if is48 d then 1391 else 2879)
        let lost := (span.filter (fun x => x.isNone)).length
        if span.length < 4 * lost then l
        else
          let sig := span.map (fun x => x.getD (0, 0))
          let ph (f : Int × Int → Int) : Word × Word := phasor (stepFreq d step) (rateOf d) (sig.map f)
          { l with sweep := some { s with steps := s.steps ++ [(step, ph (fun x => x.1), ph (fun x => x.2))] } }) d

/-- NIGHT_STEP_END: the phasors of a step are measured as its frames end (R327). -/
def doNightStepEnd (g step : Nat) (d : Dev) : Dev :=
  match sweeping d g with
  | none => d
  | some (b, ls) =>
    if step < sweepSteps d && atFrame d (b + 319 + 256 * step) then forEach ls (stepLine b step) d else d

/-! ### The night result (R328, R334) -/

/-- The complex quotient (a + jb) ÷ (c + jd). -/
def cdiv (x y : Word × Word) : Word × Word :=
  let m := fadd (fmul y.1 y.1) (fmul y.2 y.2)
  (fdiv (fadd (fmul x.1 y.1) (fmul x.2 y.2)) m, fdiv (fsub (fmul x.2 y.1) (fmul x.1 y.2)) m)

/-- A complex value scaled. -/
def cscale (x : Word × Word) (s : Word) : Word × Word := (fmul x.1 s, fmul x.2 s)

/-- Address of line `k`'s part of the result area (R332). -/
def resLine (d : Dev) (k : Nat) : Nat := supArea d + 1024 * k

/-- A night baseline is held (R335). -/
def hasNight (d : Dev) (k : Nat) : Bool := bit (rdN d (resLine d k + 0x218) 8) 1

/-- The result of a sweep of line `k` whose group's last frame was `last` (R328). -/
def nightResult (d : Dev) (win : Word) (last : Nat) (k : Nat) (s : NightLine) : NightSet :=
  let vs := widen (rd d (supVScale k))
  let is := widen (rd d (supIScale k))
  let om (st : Nat) : Word := fmul twoPi (fint (stepFreq d st))
  let y (e : Nat × (Word × Word) × (Word × Word)) : Word × Word := cdiv (cscale e.2.2 is) (cscale e.2.1 vs)
  let zmag (e : Nat × (Word × Word) × (Word × Word)) : Word :=
    let z := cdiv (cscale e.2.1 vs) (cscale e.2.2 is)
    hypot z.1 z.2
  let c := fdiv (fsum (s.steps.map (fun e => fmul (om e.1) (y e).2))) (fsum (s.steps.map (fun e => fmul (om e.1) (om e.1))))
  let g := fdiv (fsum (s.steps.map (fun e => (y e).1))) (fint s.steps.length)
  let base := hasNight d k
  let cb := widen (rdN d (resLine d k + 0x228) 4)
  let gb := widen (rdN d (resLine d k + 0x22C) 4)
  let some_ := !s.steps.isEmpty
  let open_ := if base then flt c (fmul (frat 1 10) cb)
    else some_ && s.steps.all (fun e => flt (hypot e.2.2.1 e.2.2.2) (fint 4))
  let short := some_ && s.steps.all (fun e => flt (zmag e) (frat (rd d supShortOhms) 10))
  let leak := flt (frat (rd d supLeakLimit) 100000) (if base then fsub g gb else g)
  let cap := base && flt (frat (supCapLimit d) 100) (fabs (fsub (fdiv c cb) (fint 1)))
  let unit := rd d (supCUnit k)
  let n := if base ∧ unit ≠ 0 then (fpToInt 0 32 (unpack b64 (fdiv (fsub c cb) (frat unit 1000000000)).toNat)).1 else 0
  let incomplete := s.incomplete || decide (s.steps.length * 2 < sweepSteps d)
  { frame := BitVec.ofNat 64 last
    win := win
    flags := b2n open_ + 2 * b2n short + 4 * b2n leak + 8 * b2n cap + 16 * b2n s.overload + 32 * b2n incomplete
    measured := s.steps.length
    cap := max (-127) (min n 127)
    c := narrow c
    g := narrow g
    vrms := narrow (fmaxOf (s.steps.map (fun e => fmul (hypot e.2.1.1 e.2.1.2) vs)))
    zmag := s.steps.map (fun e => (e.1, narrow (zmag e))) }

/-- The group in its sweep frames ends: the fit and the flags are formed (R327, R328). -/
def groupFinish (d : Dev) : Dev :=
  match d.sup.night with
  | none => d
  | some w =>
    match w.group.bind (sweeping d) with
    | none => d
    | some (b, ls) =>
      let last := b + groupLen d - 1
      let res := ls.map (fun k => (k, (supLine d k).sweep.map (nightResult d w.frame last k)))
      let flagged := (res.filter (fun r => ((r.2.map (fun x => x.flags != 0)).getD false))).length
      let d1 := forEach res (fun r d => onSup r.1 (fun l => { l with sweep := none, nightSet := r.2 }) d) d
      wr { d1 with sup := { d1.sup with
        phase := d1.sup.phase + groupPhase d (min (groupLen d) ((workFrame d).toNat + 1 - b))
        night := some { w with group := none, flagged := w.flagged + flagged } } } supSweeping 0

/-- NIGHT_GROUP_BEGIN: the group's first frame, with its level-setting tone (R325, R326). -/
def doNightGroupBegin (g : Nat) (d0 : Dev) : Dev :=
  let d := groupFinish d0
  match d.sup.night with
  | none => d0
  | some w =>
    if flag d supNightActive && bit w.groups g && !w.begun.contains g &&
        (workFrame d).toNat == w.frame.toNat + groupLen d * g then
      let d := readLines d
      let ls := (List.range 24).map (fun i => 24 * g + i)
      let on := ls.filter (fun k => (supLine d k).on && entNightEn (entryNow d k))
      let d1 := { d with sup := { d.sup with
        night := some { w with group := some g, begun := g :: w.begun, swept := w.swept + on.length } } }
      let fresh (d : Dev) (k : Nat) : NightLine :=
        { playing := !emergency d k, level := dbAmp (rd d (supSweepLevel k)) (-20),
          overload := false, incomplete := emergency d k, sense := [], steps := [] }
      let d2 := forEach on (fun k d => onSup k (fun l => { l with sweep := some (fresh d k) }) d) d1
      wr (wr d2 supSweeping 1) supNightGroup g
    else d0

/-- NIGHT_GROUP_END: the group's last frame has been sent (R325, R328). -/
def doNightGroupEnd (g : Nat) (d : Dev) : Dev :=
  match sweeping d g with
  | some (b, _) =>
    let f := b + groupLen d - 1
    if (workFrame d).toNat = f ∧ 109568 ≤ d.clk.cycle ∨ (workFrame d).toNat = f + 1 ∧ d.clk.cycle ≤ 109568 then groupFinish d
    else d
  | none => d

/-- The night window ends (R324, R328, R329, R340): where it is cut short the lines whose tone plays are incomplete, under a
disable every line of the group in progress; and that group has its results formed (log entry 55). -/
def nightOver (cut every : Bool) (d : Dev) : Dev :=
  match d.sup.night with
  | none => d
  | some _ =>
    let d1 := doIf cut (forN 192 (fun k d => if tonePlays d k || (every && (supLine d k).sweep.isSome) then
      onSup k (stopTone d k false true) d else d)) d
    let d2 := groupFinish d1
    let d3 := { d2 with sup := { d2.sup with
      night := none, ended := if flag d2 supNightActive then d2.sup.night else d2.sup.ended } }
    wr (wr (wr d3 supNightArmed 0) supNightActive 0) supSweeping 0

/-- The night window and its tones at a tick (R324, R329). -/
def nightTick (d : Dev) : Dev :=
  match d.sup.night with
  | none => d
  | some w =>
    let n := (workFrame d).toNat
    if w.frame.toNat + w.len ≤ n then nightOver false false d
    else if n < w.frame.toNat then d
    else
      forN 192 (fun k d =>
        if tonePlays d k && (emergency d k || !entNightEn (entryNow d k)) then onSup k (stopTone d k false true) d
        else d) (wr (wr d supNightArmed 0) supNightActive 1)

/-- The next publication number (R336). -/
def nextSeq (n : Nat) : Nat := if n = 0xFFFFFFFF then 1 else n + 1

/-- A block of line `k` is written with its number at both ends (R336), in one step: no command falls between its three
writes (DESIGN CHOICE, log entry 140). Where no memory takes it, or the number there cannot be read, RES_MEM_ERROR is captured with
the line (R341). -/
def publish (k a tail : Nat) (body : List Byte) (d : Dev) : Nat × Dev :=
  let n := nextSeq (rdN d a 4)
  (n, if inRam a && inRam (a + tail + 7) && !eccHit d a (tail + 8) && !fenced d a (tail + 8) && guardOf d a (tail + 8) != some .bobbin then
      inc (wrN (wrBytes (wrN d a 4 n) (a + 4) body) (a + tail) 8 n) supPublishCount
    else captureErr .sup 0x0102 k (if guardOf d a (tail + 8) = some .bobbin then countGuard .bobbin d else d))

/-- The body of a night block, from offset 4 (R334). -/
def nightBody (s : NightSet) : List Byte :=
  leBytes 4 0 ++ leBytes 8 s.frame.toNat ++
  leBytes 8 (s.flags + s.measured * 2 ^ 8 + ofSigned 8 s.cap * 2 ^ 24) ++ leBytes 4 s.c ++ leBytes 4 s.g ++
  leBytes 4 s.vrms ++ leBytes 4 0 ++
  (List.range 16).flatMap (fun i => leBytes 4 (match s.zmag.find? (fun z => z.1 == i) with | some z => z.2 | none => nan32)) ++
  leBytes 16 0

/-- NIGHT_PUBLISH: a line's night set is published in the 17th frame period after its group (R328, R336). -/
def doNightPublish (k : Nat) (d : Dev) : Dev :=
  match (supLine d k).nightSet with
  | none => d
  | some s =>
    if d.clk.frame.toNat ≠ s.frame.toNat + 17 then d
    else
      let p := publish k (resLine d k + 0x100) 0x78 (nightBody s) (atCycle 4096 d)
      let d1 := wr (onSup k (fun l => { l with
        nightSet := none
        candNight := (s.win, if s.flags % 4 = 0 ∧ s.flags / 16 = 0 then some (s.c, s.g) else none) ::
          l.candNight.filter (fun c => c.1 != s.win && (l.candBands.bind (fun e => e.night)) == some c.1) }) p.2)
        (supNightFlags k) s.flags
      if s.flags = 0 then d1
      else logAt s.frame 0x4002 0 (if s.flags % 4 = 0 then 1 else 2)
        [(2, k), (2, s.flags), (4, ofSigned 32 s.cap), (4, s.c), (4, s.g)] p.1 d1

/-- NIGHT_WINDOW_END: the window's record (R328). -/
def doNightWindowEnd (d : Dev) : Dev :=
  match d.sup.ended with
  | none => d
  | some w =>
    raise .sup 1 (logEv 0x4004 0 0 [(4, w.swept), (4, w.flagged)] w.frame.toNat { d with sup := { d.sup with ended := none } })

/-! ### The impedance estimate (R314 to R318) -/

/-- Band edges in hertz (R317). -/
def bandEdges : List Nat :=
  [50, 64, 82, 106, 136, 174, 224, 287, 368, 473, 607, 779, 1000, 1284, 1648, 2115, 2714, 3484, 4472, 5740, 7368, 9457,
   12139, 15581, 20000]

/-- The tier of a band (R314). -/
def bandTier (b : Nat) : Nat := if 20 ≤ b then 0 else if 14 ≤ b then 1 else if 8 ≤ b then 2 else 3

/-- Lag spacing of a tier (R314). -/
def lagSpacing (d : Dev) (t : Nat) : Nat :=
  if t = 0 then 1 else if is48 d then 4 ^ t / 2 else 4 ^ t

/-- The bins of a band (R318). -/
def bandBins (d : Dev) (b : Nat) : List Nat :=
  let m := 256 * lagSpacing d (bandTier b)
  (List.range 128).filter (fun k =>
    decide (nth bandEdges b 0 * m ≤ k * rateOf d) && decide (k * rateOf d < nth bandEdges (b + 1) 0 * m))

/-- A signal through a tier's filter; tier 0 has none (R314). -/
def tierFilter (d : Dev) (t : Nat) (l : List Int) : List Int := if t = 0 then l else Config.lowpass t (is48 d) l

/-- The white sequence of line `l` at probe index `x`; what is not recorded counts as zero. -/
def probeAt (d : Dev) (l : SupLine) (x : Int) : Int :=
  if x < 0 then 0
  else match l.probe.find? (fun f => f.1 == x.toNat / nSamp d) with
    | some f => if f.2.1 then nth f.2.2 (x.toNat % nSamp d) 0 else 0
    | none => 0

/-- The correlation sums of a tier, by lag (R315): the sense signal `sig`, with `heard` false where concealed, and `pre`
before it. The filters run on from before the window (R314; DESIGN CHOICE, log entry 137). -/
def correlate (d : Dev) (l : SupLine) (k t start : Nat) (heard : List Bool) (pre sig : List Int) : List Int :=
  let D := lagSpacing d t
  let S : Int := start - rd d (supBulkDelay k) - 127 * D - pre.length
  let ref := (tierFilter d t ((List.range (pre.length + 127 * D + sig.length)).map (fun (i : Nat) =>
    0x4000 * probeAt d l (S + (i : Int))))).drop pre.length
  let f := ((tierFilter d t (pre ++ sig)).drop pre.length).map (satSigned 16)
  (List.range 128).map (fun lag =>
    toSigned 64 (ofSigned 64 (((List.range sig.length).map (fun x =>
      if nth heard x false then nth f x 0 * nth ref (x + 127 * D - lag * D) 0 else 0)).sum)))

/-- A bin of a tier's transform (R318). -/
def binOf (c : List Int) (k : Nat) : Word × Word :=
  (List.range 128).foldl (fun (a : Word × Word) l =>
    let v := fint (nth c l 0)
    let t := turn (k * l) 256
    (fadd a.1 (fmul v t.1), fsub a.2 (fmul v t.2))) (0, 0)

/-- The impedance of a band, from the tier's sums (R318). -/
def bandZ (d : Dev) (k b : Nat) (cv ci : List Int) : Option (Nat × Nat) :=
  let r := (bandBins d b).foldl (fun (a : (Word × Word) × Word) i =>
    let v := binOf cv i
    let c := binOf ci i
    ((fadd a.1.1 (fadd (fmul v.1 c.1) (fmul v.2 c.2)), fadd a.1.2 (fsub (fmul v.2 c.1) (fmul v.1 c.2))),
     fadd a.2 (fadd (fmul c.1 c.1) (fmul c.2 c.2)))) ((0, 0), 0)
  if feq r.2 0 then none
  else
    let vs := widen (rd d (supVScale k))
    let is := widen (rd d (supIScale k))
    some (narrow (fdiv (fmul (fdiv r.1.1 r.2) vs) is), narrow (fdiv (fmul (fdiv r.1.2 r.2) vs) is))

/-- The estimate of a window that has ended (R316, R318, R320). -/
def windowEst (d : Dev) (k : Nat) (l : SupLine) (w : SupWin) : SupEst :=
  let n := nSamp d
  let A := winLen w.acc
  let frames := w.sense.reverse
  let lost := (frames.filter (fun f => f.isNone)).length
  let flat (fs : List (Option (List (Int × Int)))) (f : Int × Int → Int) : List Int := fs.flatMap (fun x => match x with
    | some l => l.map f
    | none => List.replicate n 0)
  let heard := frames.flatMap (fun x => List.replicate n x.isSome)
  let sum (t : Nat) (f : Int × Int → Int) : List Int :=
    correlate d l k t (n * w.j * A) heard (flat w.before.reverse f) (flat frames f)
  let sums (t : Nat) : List Int × List Int := (sum t (fun x => x.1), sum t (fun x => x.2))
  let dead := decide (A < 4 * lost) || rd d (supVScale k) % 2 ^ 31 == 0 || rd d (supIScale k) % 2 ^ 31 == 0
  let heats := w.heat.filterMap id
  let noTh := decide (heats.length < w.heat.length) || w.heat.isEmpty
  { frame := BitVec.ofNat 64 (w.j * A + A - 1)
    bands := (List.range 24).map (fun b =>
      if dead || !bit w.loud b then none
      else let c := sums (bandTier b); bandZ d k b c.1 c.2)
    dt := narrow (fdiv (fsum (heats.reverse.map (fun h => widen h.1))) (fint (max 1 w.heat.length)))
    unc := if noTh then inf32 else narrow (fmaxOf (heats.map (fun h => widen h.2)))
    noThermal := noTh
    acc := w.acc
    night := w.night }

/-- SUP_WINDOW_END: the estimate of a window that has ended (R316, R318). -/
def doSupWindowEnd (k : Nat) (d : Dev) : Dev :=
  match (supLine d k).ended with
  | none => d
  | some w => onSup k (fun l => { l with ended := none, est := some (windowEst d k l w) }) d

/-! ### Fault decisions and publication (R320 to R323, R333, R336) -/

/-- Baseline band `b` of line `k` is valid (R335). -/
def baseValid (d : Dev) (k b : Nat) : Bool :=
  bit (rdN d (resLine d k + 0x218) 8) 0 && bits (rdN d (resLine d k + 0x220) 8) (2 * b + 1) (2 * b) == 0

/-- 1 + 0.00393 × ΔT (R320). -/
def heatFactor (dt : Nat) : Word := fadd (fint 1) (fmul (frat 393 100000) (widen dt))

/-- The deviation of a measured band from its baseline (R320). -/
def deviation (d : Dev) (k b : Nat) (e : SupEst) (z : Nat × Nat) : Word :=
  let base := resLine d k + 0x200
  let r := fdiv (fmul (widen z.1) (heatFactor (rdN d (base + 0x10) 4))) (heatFactor e.dt)
  let zb := hypot (widen (rdN d (base + 0x30 + 8 * b) 4)) (widen (rdN d (base + 0x34 + 8 * b) 4))
  fsub (fdiv (hypot r (widen z.2)) zb) (fint 1)

/-- The set is thermally qualified (R321). -/
def thermalQual (d : Dev) (e : SupEst) : Bool := flt (fint (rd d supUncLimit)) (widen e.unc)

/-- The counted bands and their deviations (R322). -/
def countedBands (d : Dev) (k : Nat) (e : SupEst) : List (Nat × Word) :=
  (List.range 24).filterMap (fun b =>
    match nth e.bands b none with
    | some z => if baseValid d k b && !(thermalQual d e && decide (b < 10)) then some (b, deviation d k b e z) else none
    | none => none)

/-- LINE_STATE of a set (R322). -/
def lineState (d : Dev) (k : Nat) (c : List (Nat × Word)) : Nat :=
  let L := frat (supLimit d) 100
  let num (p : Word → Bool) : Nat := (c.filter (fun x => p x.2)).length
  let f := supFaults d
  let hi := num (fun x => flt L x)
  let lo := num (fun x => flt x (fsub 0 L))
  if !(List.range 24).any (baseValid d k) then 6
  else if c.length < supMin d then 5
  else if f ≤ num (fun x => flt x (fsub 0 (frat 9 10))) then 4
  else if f ≤ num (fun x => flt (fint 9) x) then 3
  else if f ≤ hi ∧ lo ≤ hi then 1
  else if f ≤ lo then 2
  else 0

/-- BAND_FLAGS of a set (R333). -/
def bandFlags (d : Dev) (k : Nat) (e : SupEst) : Nat :=
  ((List.range 24).map (fun b =>
    (if (nth e.bands b none).isNone then 1
     else if thermalQual d e && decide (b < 10) then 2
     else if !baseValid d k b then 3 else 0) * 2 ^ (2 * b))).sum

/-- R and X of every band (R333). -/
def bandBytes (e : SupEst) : List Byte :=
  (List.range 24).flatMap (fun b => match nth e.bands b none with
    | some z => leBytes 4 z.1 ++ leBytes 4 z.2
    | none => leBytes 4 nan32 ++ leBytes 4 nan32)

/-- The counted band with the largest deviation (R333). -/
def worst (c : List (Nat × Word)) : Nat × Word :=
  c.foldl (fun m x => if flt m.2 (fabs x.2) then (x.1, fabs x.2) else m) (0, 0)

/-- The body of a continuous block, from offset 4 (R333). -/
def setBody (d : Dev) (k : Nat) (e : SupEst) : List Byte :=
  let c := countedBands d k e
  let L := frat (supLimit d) 100
  let hi := (c.filter (fun x => flt L x.2)).length
  let lo := (c.filter (fun x => flt x.2 (fsub 0 L))).length
  leBytes 4 0 ++ leBytes 8 e.frame.toNat ++ leBytes 4 e.dt ++ leBytes 4 e.unc ++
  leBytes 8 (lineState d k c + 8 * b2n (thermalQual d e) + 16 * b2n e.noThermal + c.length * 2 ^ 8 + hi * 2 ^ 16 +
    lo * 2 ^ 24 + e.acc * 2 ^ 32) ++
  leBytes 8 (bandFlags d k e) ++ leBytes 8 (narrow (worst c).2 + (worst c).1 * 2 ^ 32) ++ bandBytes e ++ leBytes 8 0

/-- Bands measured in a set. -/
def measuredBands (e : SupEst) : Nat := (e.bands.filter (fun b => b.isSome)).length

/-- The set can be a line's candidate (R330). -/
def coolSet (d : Dev) (e : SupEst) : Bool :=
  e.night.isSome && !thermalQual d e && fle (widen e.dt) (fint (rd d supCoolLimit)) && decide (supMin d ≤ measuredBands e)

/-- SUP_PUBLISH: a set is published at frame cycle 4,096 of the 17th frame period after its window's last frame, and the
declared state may change (R322, R323, R336). -/
def doSupPublish (k : Nat) (d : Dev) : Dev :=
  match (supLine d k).est with
  | none => d
  | some e =>
    if d.clk.frame.toNat ≠ e.frame.toNat + 17 then d
    else
      let c := countedBands d k e
      let st := lineState d k c
      let qual := thermalQual d e
      let L := frat (supLimit d) 100
      let hi := (c.filter (fun x => flt L x.2)).length
      let lo := (c.filter (fun x => flt x.2 (fsub 0 L))).length
      let was := flag d (supThermalQual k)
      let last := rd d (supLastState k)
      let p := publish k (resLine d k) 0xF8 (setBody d k e) (atCycle 4096 d)
      let d1 := onSup k (fun l => { l with
        est := none
        run := if l.run ≠ 0 ∧ last = st then l.run + 1 else 1
        candBands := if coolSet d e then some e else l.candBands }) p.2
      let d2 := wr (wr d1 (supLastState k) st) (supThermalQual k) (b2n qual)
      let d3 := if qual = was then d2
        else logAt e.frame 0x4003 0 0 [(2, k), (2, b2n qual), (4, e.unc)] p.1 d2
      if supPersistN d ≤ (supLine d3 k).run then
        supDeclare k st c.length hi lo (narrow (worst c).2) p.1 e.frame d3
      else d3

/-! ### Baselines (R330, R331, R335, R338) -/

/-- A baseline block is written, with its record: the source, adopted or loaded, whose codes the manual does not give, and reason 0,
none (R319, R331, R335, R336, R341). -/
def putBaseline (loaded : Bool) (k : Nat) (body : List Byte) (d : Dev) : Dev :=
  let p := publish k (resLine d k + 0x200) 0xF8 body d
  let w := rdN p.2 (resLine d k + 0x218) 8
  let d1 := wr (wr p.2 (supBandsValid k) (w % 2)) (supNightValid k) (w / 2 % 2)
  logEv 0x4005 0 0 [(2, k), (2, (Config.baselineSource loaded).toNat), (2, 0)] p.1 d1

/-- The body of a baseline block made of a candidate (R330, R335). -/
def candBody (fr : Word) (bands : Option SupEst) (night : Option (Nat × Nat)) : List Byte :=
  let flags := match bands with
    | some e => ((List.range 24).map (fun b => (if (nth e.bands b none).isNone then 1 else 0) * 2 ^ (2 * b))).sum
    | none => ((List.range 24).map (fun b => 2 ^ (2 * b))).sum
  leBytes 4 0 ++ leBytes 8 fr.toNat ++
  (match bands with | some e => leBytes 4 e.dt ++ leBytes 4 e.unc | none => leBytes 8 0) ++
  leBytes 8 (b2n bands.isSome + 2 * b2n night.isSome) ++ leBytes 8 flags ++
  (match night with | some n => leBytes 4 n.1 ++ leBytes 4 n.2 | none => leBytes 8 0) ++
  (match bands with | some e => bandBytes e | none => leBytes 192 0) ++ leBytes 8 0

/-- The night part of a line's candidate: the result of the night window of the set it holds; without a set, the last night's
(R330; DESIGN CHOICE, log entry 142). -/
def candNightOf (l : SupLine) : Option (Nat × Nat) :=
  match l.candBands with
  | some e => (l.candNight.find? (fun c => some c.1 == e.night)).bind (fun c => c.2)
  | none => l.candNight.head?.bind (fun c => c.2)

/-- ADOPT at its commit point: the lines of the mask take their candidates; `loaded` are lines that a LOAD of the same
commit point names, and what its refusal left stays (R330, R338, R341). -/
def adoptApply (mask : List W32) (loaded : List Nat) (d : Dev) : Dev :=
  let lines := (List.range 192).filter (fun k => bit (nth mask (k / 32) 0).toNat (k % 32))
  let skip := lines.filter (fun k => loaded.contains k)
  let rest := lines.filter (fun k => !loaded.contains k)
  let has (k : Nat) : Bool := (supLine d k).candBands.isSome || (candNightOf (supLine d k)).isSome
  let yes := rest.filter has
  let no := rest.filter (fun k => !has k)
  let d1 := forEach yes (fun k d => putBaseline false k (candBody (workFrame d) (supLine d k).candBands (candNightOf (supLine d k))) d) d
  let bad := !loaded.isEmpty && flag d supRefused
  let reason := if bad then rd d supReason else if !no.isEmpty then 1 else if !skip.isEmpty then 3 else 0
  wr (wr (wr (wr (wr (wr d1 supAdopted yes.length) supReason reason) supRefused (b2n (bad || !no.isEmpty))) supDone 1)
    supBusy 0) supAdopt 0

/-- A staged baseline that LOAD refuses (R331): its 256 bytes as a number. -/
def badBaseline (n : Nat) : Bool :=
  let w (o : Nat) : Nat := n / 2 ^ (8 * o) % 2 ^ 64
  let f (o : Nat) : Nat := n / 2 ^ (8 * o) % 2 ^ 32
  f 4 != 0 || decide (4 ≤ w 0x18) || decide (2 ^ 48 ≤ w 0x20) || w 0xF0 != 0 || f 0xFC != 0 ||
  !nonneg32 (f 0x28) || !nonneg32 (f 0x2C) ||
  (List.range 24).any (fun b => bits (w 0x20) (2 * b + 1) (2 * b) == 0 &&
    (!pos32 (f (0x30 + 8 * b)) ||
     (let z := hypot (widen (f (0x30 + 8 * b))) (widen (f (0x34 + 8 * b)))
      !fineb64 z || !flt 0 z)))

/-- The line that a LOAD names; 192 to 255 are reserved (R19, R341). -/
def loadLine (l : Nat) : Nat := if 192 ≤ l then 0 else l

/-- LOAD at its commit point (R331). -/
def loadApply (line : Nat) (data : List W32) (d : Dev) : Dev :=
  let bytes := data.flatMap (fun w => leBytes 4 w.toNat)
  let n := ofLe bytes
  let fin (d : Dev) : Dev := wr (wr (wr d supDone 1) supBusy 0) supLoad 0
  if badBaseline n then fin (wr (wr d supRefused 1) supReason 2)
  else
    fin (wr (wr (putBaseline true (loadLine line) (leBytes 4 0 ++ leBytes 8 (workFrame d).toNat ++ (bytes.take 0xF8).drop 0x10) d)
      supRefused 0) supReason 0)

/-- A committed write to the configuration of SUP, TAG or WEAR (R339, R343). -/
def supConfigApply (a : Nat) (word : W32) (d : Dev) : Dev :=
  let m := BitVec.ofNat 32 (((rowAt a).map (fun r => r.rw)).getD 0)
  let d1 := wrw d a ((rdw d a &&& ~~~m) ||| (word &&& m))
  if 0x302040 ≤ a ∧ a < 0x302C40 then supAbandon ((a - 0x302040) / 16) d1 else d1

/-- The engine's disable takes effect: probe and tone end, windows are abandoned, what is not published is dropped
(R340). -/
def supDisable (d : Dev) : Dev :=
  forN 192 (fun k d => onSup k (fun l => { l with
    on := false, win := none, ended := none, est := none, level := [], past := [] }) (supAbandon k d)) (nightOver true true d)

end Sys2Proof.Machine
end

