-- ==== Sys2Proof/Machine/Wear.lean ====
section
/-! DEFINITION. Loudspeaker wear (R354 to R360): thermal models, dose, derating, line records and the model table. -/

namespace Sys2Proof.Machine

/-! ### Wear records (R355) -/

/-- A wear record; bit patterns as its fields hold them. -/
structure WearRec where
  id : Nat
  model : Nat
  saddr : Nat
  valid : Bool
  present : Bool
  loaded : Bool
  noModel : Bool
  hot : Bool
  notice : Bool
  replace : Bool
  worn : Bool
  tap : Nat
  dose : Nat
  rated : Nat
  install : Nat
  thetaC : Nat
  thetaM : Nat
  tCoil : Nat
  unc : Nat
  overtemp : Nat
  writes : Nat
  last : Nat
  deriving DecidableEq, Repr

/-- A record from its 64 bytes, as a number. -/
def wearRecOf (n : Nat) : WearRec :=
  let f (o s : Nat) : Nat := n / 2 ^ (8 * o) % 2 ^ (8 * s)
  let w := f 8 4
  { id := f 0 8, model := w % 2 ^ 16, saddr := bits w 21 16, valid := bit w 24, present := bit w 25, loaded := bit w 26,
    noModel := bit w 27, hot := bit w 28, notice := bit w 29, replace := bit w 30, worn := bit w 31, tap := f 12 4,
    dose := f 16 8, rated := f 24 4, install := f 28 4, thetaC := f 32 4, thetaM := f 36 4, tCoil := f 40 4, unc := f 44 4,
    overtemp := f 48 4, writes := f 52 4, last := f 56 8 }

/-- The 64 bytes of a record. -/
def wearRecBytes (r : WearRec) : List Byte :=
  leBytes 8 r.id ++
  leBytes 4 (r.model % 2 ^ 16 + r.saddr % 64 * 2 ^ 16 + b2n r.valid * 2 ^ 24 + b2n r.present * 2 ^ 25 +
    b2n r.loaded * 2 ^ 26 + b2n r.noModel * 2 ^ 27 + b2n r.hot * 2 ^ 28 + b2n r.notice * 2 ^ 29 + b2n r.replace * 2 ^ 30 +
    b2n r.worn * 2 ^ 31) ++
  leBytes 4 r.tap ++ leBytes 8 r.dose ++ leBytes 4 r.rated ++ leBytes 4 r.install ++ leBytes 4 r.thetaC ++
  leBytes 4 r.thetaM ++ leBytes 4 r.tCoil ++ leBytes 4 r.unc ++ leBytes 4 r.overtemp ++ leBytes 4 r.writes ++ leBytes 8 r.last

/-- The wear pointer of line `k`, in service or not (R359); 0 is none (DEDUCED, log entry 31). -/
def wearPtr (d : Dev) (k : Nat) : Nat :=
  let e := entryNow d k
  if entType e = 1 && entWearPtr e % 4096 == 0 then entWearPtr e else 0

/-- Record `i` of line `k`, as WEAR itself wrote it; one that it never wrote is not in use (R355; DEDUCED, log entry 144). -/
def wearRec (d : Dev) (k i : Nat) : WearRec := wearRecOf ((tget (fun _ => none) d.wear.recs (64 * k + i)).getD 0)

/-- A write of WEAR to memory for line `k`: one that no memory takes, or that falls into another block's table, is
RECORD_MEM_ERROR (R241, R332, R363). -/
def wearPut (k a : Nat) (l : List Byte) (d : Dev) : Dev :=
  if inRam a && inRam (a + l.length - 1) && (guardOf d a l.length).isNone then wrBytes d a l
  else captureErr .wear 0x0101 k (match guardOf d a l.length with | some b => countGuard b d | none => d)

/-- Record `i` of line `k` set: WEAR's copy, and memory after it (R355). -/
def putWearRec (k i : Nat) (r : WearRec) (d : Dev) : Dev :=
  wearPut k (wearPtr d k + 64 * i) (wearRecBytes r)
    { d with wear := { d.wear with
      recs := tset (fun _ => none) d.wear.recs (64 * k + i) (some (ofLe (wearRecBytes r))) } }

/-! ### Lines -/

/-- A line WEAR has not stepped. -/
def WearLine.reset : WearLine := { powers := [], p := 0, derate := 0, heat := none }

/-- WEAR's state of line `k`. -/
def wearLine (d : Dev) (k : Nat) : WearLine := tget (fun _ => WearLine.reset) d.wear.lines k

/-- WEAR's state of line `k` changed. -/
def onWear (k : Nat) (f : WearLine → WearLine) (d : Dev) : Dev :=
  { d with wear := { d.wear with lines := tset (fun _ => WearLine.reset) d.wear.lines k (f (wearLine d k)) } }

/-- WEAR works, or finishes the frame period in which it was disabled (R362). -/
def wearRunning (d : Dev) : Bool := flag d (hdrActive .wear) || flag d (hdrQuiescing .wear)

/-- The power of a sense frame of line `k` (R356). -/
def framePower (d : Dev) (k : Nat) (l : List (Int × Int)) : Word :=
  fmul (fmul (fmul (widen (rd d (supVScale k))) (widen (rd d (supIScale k)))) (frat 1 (nSamp d)))
    (fint ((l.map (fun x => x.1 * x.2)).sum))

/-- The sense frame that closes at a tick adds its power to its line, supervised or not until the step; a step's first frame begins
anew (R356). -/
def wearSense (d : Dev) : Dev :=
  if !wearRunning d then d
  else
    let d1 := if (workFrame d).toNat % 64 = 0 then
        { d with wear := { d.wear with lines := d.wear.lines.map (fun e => (e.1, { e.2 with powers := [] })) } }
      else d
    forN 192 (fun k d =>
      match senseFrame d k with
      | some l => onWear k (fun w => { w with powers := w.powers ++ [framePower d k l] }) d
      | none => d) d1

/-! ### Model table (R360) -/

/-- A 32-bit field of a model entry. -/
def modelField (e o : Nat) : Nat := e / 2 ^ (8 * o) % 2 ^ 32

/-- The entry that governs a model code, and whether it is the default's (R360). -/
def modelOf (l : List Nat) (m : Nat) : Option (Nat × Bool) :=
  let is (c : Nat) (e : Nat) : Bool := bit (modelField e 0) 16 && modelField e 0 % 2 ^ 16 == c
  match l.find? (is m) with
  | some e => some (e, false)
  | none => (l.find? (is 0xFFFF)).map (fun e => (e, true))

/-- An entry that MODEL_COMMIT refuses (R360). -/
def badModel (e : Nat) : Bool :=
  [4, 8, 12, 16].any (fun o => !pos32 (modelField e o)) || [20, 24].any (fun o => !fin32 (modelField e o))

/-- MODEL_COUNT in force (R19, R363). -/
def modelCount (d : Dev) : Nat := inRange 0 1024 (rd d wearModelCount) 0

/-- MODEL_COMMIT at its commit point (R360). -/
def modelCommitApply (d : Dev) : Dev :=
  let l := (List.range (modelCount d)).map (fun i => rdN d (rd d wearModelBase * 256 + 32 * i) 32)
  let d1 := if l.any badModel then captureErr .wear 0x0100 0 d
    else { d with wear := { d.wear with next := (d.clk.frame, l) :: d.wear.next } }
  wr d1 wearModelCommit 0

/-- The model table that a step of this period uses: a table committed in this very period is left for the next step
(R360, R361). -/
def takeModels (d : Dev) : Dev :=
  match d.wear.next.find? (fun t => t.1 != d.clk.frame) with
  | some (_, l) =>
    { d with wear := { d.wear with models := l, next := d.wear.next.filter (fun t => t.1 == d.clk.frame) } }
  | none => d

/-! ### The step (R356 to R358) -/

/-- Δt, 64 frames (R356). -/
def wearDt : Word := frat 1 125

/-- The share of a record (R356); where no record has one it is 0 (DESIGN CHOICE, log entry 145). -/
def shareOf (tap total : Nat) : Word := if total = 0 then 0 else fdiv (fint tap) (fint total)

/-- A record after a step, its dt and its unc (R356, R357): the governing entry `m`, the power of its share, and the
line's ambient. -/
def stepRec (d : Dev) (m : Nat × Bool) (p : Word) (amb : Word) (r : WearRec) : WearRec × Word × Word :=
  let f (o : Nat) : Word := widen (modelField m.1 o)
  let a (tau : Word) : Word := fexp (fdiv (fsub 0 wearDt) tau)
  let th (old rth tau : Word) : Word := fadd (fmul (a tau) old) (fmul (fmul (fsub (fint 1) (a tau)) p) rth)
  let tm := th (widen r.thetaM) (f 12) (f 16)
  let tc := th (widen r.thetaC) (f 4) (f 8)
  let dt := fadd tc tm
  let coil := fadd amb dt
  let frac := frat (if m.2 then rd d wearDefaultUnc else modelField m.1 28 % 256) 256
  let dose := fadd (w64 r.dose)
    (fmul (fdiv wearDt (fint 3600)) (fexp2 (fdiv (fsub coil (f 20)) (fint 10))))
  let hot := flt (f 24) coil
  ({ r with
      thetaM := narrow tm, thetaC := narrow tc, tCoil := narrow coil, unc := narrow (fmul frac dt), dose := dose.toNat,
      noModel := m.2, hot := hot, overtemp := if hot && !r.hot then (r.overtemp + 1) % 2 ^ 32 else r.overtemp,
      notice := fle (fmul (frat 4 5) (widen r.rated)) dose, replace := fle (widen r.rated) dose },
    dt, fmul frac dt)

/-- A record's crossings become events (R357). -/
def wearEvents (k i : Nat) (old new : WearRec) (d : Dev) : Dev :=
  let ev (typ : Nat) (c : Bool) (d : Dev) : Dev :=
    if c then raise .wear 0 (logEv typ 0 1 [(2, k), (2, i), (8, new.id)] 0 d) else d
  let d1 := ev 0x4202 (new.replace && !old.replace) (ev 0x4201 (new.notice && !old.notice) d)
  doIf (new.hot && !old.hot) (fun d => inc d wearOvertempEvents) d1

/-- T_COIL at most T_MAX less HYST (R358). -/
def wearCool (m : Nat) (r : WearRec) : Bool :=
  fle (widen r.tCoil) (fsub (widen (modelField m 24)) (fint (bits (modelField m 28) 15 8)))

/-- Lines with D above zero; HOT stands while there is one (R45, R363). -/
def countHot (d : Dev) : Dev :=
  let d1 := wr d wearHotLines ((List.range 192).filter (fun k => (wearLine d k).derate != 0)).length
  raiseEdge .wear 1 (rd d wearHotLines != 0) (rd d1 wearHotLines != 0) d1

/-- A line's derating after a step, and its records (R358, R363): WEAR_HOT names the lowest hot record, and WEAR_COOL one that
the part chooses from the line's records, alike in both twins (R343; log entry 58). -/
def wearDerate (k : Nat) (recs : List (Nat × WearRec)) (cool : Bool) (d : Dev) : Dev :=
  let hot := recs.find? (fun r => r.2.hot)
  let old := (wearLine d k).derate
  let new := if hot.isSome then min (old + 16) 0x600 else if cool then old - 2 else old
  let d1 := onWear k (fun w => { w with derate := new }) d
  let say (typ sev i : Nat) (d : Dev) : Dev := logEv typ 0 sev [(2, k), (2, i), (8, (wearRec d k i).id)] 0 d
  if old = 0 ∧ new ≠ 0 then say 0x4203 1 ((hot.map (fun r => r.1)).getD 0) d1
  else if old ≠ 0 ∧ new = 0 then say 0x4204 0 (Config.coolRecord k (recs.map (fun r => r.2.id)) % 64) d1
  else d1

/-- A record after the step of its line: one in use and present is stepped, any other keeps its state (R356). -/
def wearStepRec (d : Dev) (total : Nat) (p amb : Word) (r : WearRec) : WearRec × Word × Word :=
  if r.valid && r.present then
    match modelOf d.wear.models r.model with
    | some m => stepRec d m (fmul (shareOf r.tap total) p) amb r
    | none => ({ r with noModel := true }, 0, 0)
  else (r, 0, 0)

/-- A step of a line (R356 to R358). Every record of the line is written from WEAR's copy (R355). -/
def wearStepLine (k : Nat) (d0 : Dev) : Dev :=
  let w := wearLine d0 k
  let p := if w.powers.isEmpty then w.p else fdiv (fsum w.powers) (fint w.powers.length)
  let d := onWear k (fun w => { w with powers := [], p := p }) d0
  let recs := if wearPtr d k = 0 then [] else (List.range 64).map (fun i => (i, wearRec d k i))
  let on (r : WearRec) : Bool := r.valid && r.present
  let total := ((recs.filter (fun r => on r.2)).map (fun r => r.2.tap)).sum
  let amb := fint (toSigned 16 (rd d (wearTAmb k))) (-8)
  let new := recs.map (fun r => (r.1, r.2, wearStepRec d total p amb r.2))
  let d1 := forEach new (fun x d => wearEvents k x.1 x.2.1 x.2.2.1 (putWearRec k x.1 x.2.2.1 d)) d
  let bad := total == 0 || rd d (supVScale k) % 2 ^ 31 == 0 || rd d (supIScale k) % 2 ^ 31 == 0 ||
    new.any (fun x => on x.2.1 && (modelOf d.wear.models x.2.1.model).isNone)
  let dt := fsum ((new.filter (fun x => on x.2.1)).map (fun x => fmul (shareOf x.2.1.tap total) x.2.2.2.1))
  let u := fmaxOf ((new.filter (fun x => on x.2.1 && x.2.1.tap != 0)).map (fun x => x.2.2.2.2))
  let d2 := onWear k (fun w => { w with heat := if bad then none else some (narrow dt, narrow u) }) d1
  let used := (new.map (fun x => (x.1, x.2.2.1))).filter (fun r => r.2.valid)
  let cool := used.all (fun r => match modelOf d.wear.models r.2.model with | some m => wearCool m.1 r.2 | none => true)
  wearDerate k used cool d2

/-- WEAR_STEP: the step of every supervised line, in frame cycles 0 to 4,095 of every 64th period (R356). -/
def doWearStep (d0 : Dev) : Dev :=
  if wearRunning d0 && d0.clk.frame.toNat % 64 == 0 && decide (d0.clk.cycle < 4096) && d0.wear.stepped != some d0.clk.frame then
    let d := takeModels { d0 with wear := { d0.wear with stepped := some d0.clk.frame } }
    countHot (forEach ((List.range 192).filter (lineSup d)) wearStepLine d)
  else d0

/-! ### Line records (R359) -/

/-- The 32 bytes of a line record (R359). -/
def lineRecord (tag gain applied : Nat) (cap hot : Bool) (heat : Option (Nat × Nat)) : List Byte :=
  leBytes 4 tag ++ leBytes 4 0 ++
  leBytes 8 (min gain 0x7FFFFFFF + applied * 2 ^ 32 + b2n cap * 2 ^ 48 + b2n hot * 2 ^ 49 + b2n heat.isNone * 2 ^ 50) ++
  (match heat with | some h => leBytes 4 h.1 ++ leBytes 4 h.2 | none => leBytes 4 0 ++ leBytes 4 inf32) ++ leBytes 8 0

/-- Address of the line record of line `k`. -/
def lineRecAddr (d : Dev) (k : Nat) : Nat := rd d wearDerateBase * 256 + 32 * k

/-- WEAR writes the line record of frame n for every line with a wear pointer (R358, R359). -/
def wearLineRecords (d : Dev) : Dev :=
  if !wearRunning d then d
  else forN 192 (fun k d =>
    if wearPtr d k = 0 then d
    else
      let w := wearLine d k
      let cap := emergency d k && decide (0x300 < w.derate)
      let a := if cap then 0x300 else w.derate
      wearPut k (lineRecAddr d k)
        (lineRecord ((workFrame d).toNat % 2 ^ 32) (wearGain a) a cap (w.derate != 0) w.heat) d) d

/-- The disable of WEAR: every line record is written once more, without derating; HOT says that D, which is kept, is above zero
(R359, R362). -/
def wearDisable (d : Dev) : Dev :=
  forN 192 (fun k d => if wearPtr d k = 0 then d
    else wearPut k (lineRecAddr d k) (lineRecord ((workFrame d).toNat % 2 ^ 32) 0x7FFFFFFF 0 false ((wearLine d k).derate != 0) none) d) d

/-- ΔT and U as WEAR publishes them for line `k` (R320). -/
def wearHeat (d : Dev) (k : Nat) : Option (Nat × Nat) :=
  if wearRunning d && wearPtr d k != 0 then (wearLine d k).heat else none

/-! ### Installing records (R355, R361) -/

/-- A staged record at its commit point (R355, R363); `busy` says that a pass works the line. -/
def wearRecordApply (busy : Nat → Bool) (line i : Nat) (data : List W32) (d : Dev) : Dev :=
  let k := if 192 ≤ line then 0 else line
  let n := ofLe (data.flatMap (fun w => leBytes 4 w.toNat))
  let fin (refused : Nat) (reason : Nat) (d : Dev) : Dev :=
    wr (wr (wr (wr (wr d wearRefused refused) wearReason reason) wearDone (1 - refused)) wearBusy 0) wearCommit 0
  if busy k then fin 1 1 d
  else if wearPtr d k = 0 then fin 1 2 d
  else if bits (n / 2 ^ 64) 23 22 ≠ 0 then fin 1 3 d
  else fin 0 0 (putWearRec k i { wearRecOf n with loaded := true, present := true } d)

end Sys2Proof.Machine
end

