-- ==== Sys2Proof/Machine/Tag.lean ====
section
/-! DEFINITION. Whorl tags (R343 to R354, R361, R362): frames on the line, the enumeration walk, passes and lanes, and
the matching of tags to wear records. -/

namespace Sys2Proof.Machine

/-! ### Lanes -/

/-- What lane `i` works on. -/
def tagLane (d : Dev) (i : Nat) : Option TagLane := tget (fun _ => none) d.tag.lanes i

/-- What lane `i` works on, changed. -/
def putLane (i : Nat) (x : Option TagLane) (d : Dev) : Dev :=
  { d with tag := { d.tag with lanes := tset (fun _ => none) d.tag.lanes i x } }

/-- A lane works line `k`. -/
def lineBusy (d : Dev) (k : Nat) : Bool :=
  (List.range 24).any (fun i => ((tagLane d i).map (fun l => l.line == k)).getD false)

/-- The day of R345. -/
def tagDay (d : Dev) : Nat := (ptpNs d).toNat / 86400000000000

/-- WRITE_OFFSET in force (R19, R363). -/
def writeOffset (d : Dev) : Nat := inRange 0 86399 (rd d tagWriteOffset) 7200

/-- The bits of bytes, most significant first. -/
def msbBits (l : List Byte) : List Bool := l.flatMap (fun b => (List.range 8).map (fun i => bit b.toNat (7 - i)))

/-- CMD, ADDR and PAYLOAD of a frame (R349). -/
def tagBody (cmd addr : Nat) (data : List Byte) : List Byte :=
  BitVec.ofNat 8 cmd :: (if 0x80 ≤ cmd then beBytes 8 addr else beBytes 2 addr) ++ data

/-- The bits of a downlink frame (R349). -/
def tagFrameBits (cmd addr : Nat) (data : List Byte) : List Bool :=
  let b := tagBody cmd addr data
  msbBits ([0xAA, 0xAA, 0x2D, 0xD4] ++ b ++ beBytes 2 (crc16 b))

/-- Tones of downlink bits: 31 kHz mark, 29 kHz space, 96 samples each (R346). -/
def bitTones (l : List Bool) : List (Nat × Nat) := l.map (fun b => (if b then 31000 else 29000, 96))

/-- Samples of a run of tones. -/
def tonesLen (l : List (Nat × Nat)) : Nat := (l.map (fun t => t.2)).sum

/-- Payload bytes of a command's reply (R350). -/
def replyLen (cmd : Nat) : Nat := if cmd = 2 then 0 else if cmd / 16 = 2 then 1 else 32

/-! ### The signal on the line (R346, R348) -/

/-- The signal of line `k`. -/
def tagSig (d : Dev) (k : Nat) : Option TagSig := d.tag.sigs.find? (fun s => s.line == k)

/-- The signal of line `k` replaced. -/
def putSig (s : TagSig) (d : Dev) : Dev :=
  { d with tag := { d.tag with sigs := s :: d.tag.sigs.filter (fun x => x.line != s.line) } }

/-- The signal of line `k` changed. -/
def onSig (k : Nat) (f : TagSig → TagSig) (d : Dev) : Dev :=
  { d with tag := { d.tag with sigs := d.tag.sigs.map (fun s => if s.line = k then f s else s) } }

/-- The sample of a signal at which the present output frame begins. -/
def sigPos (d : Dev) (s : TagSig) : Nat := nSamp d * ((workFrame d).toNat - s.first)

/-- The phase of a signal after `x` samples, with the tone of sample `x`: none once it has ended. -/
def segAt (carry : Bool) : List (Nat × Nat) → Nat → W32 → Option W32
  | [], x, ph => if carry then some (ph + BitVec.ofNat 32 (x * (Config.toneStep 30000 96000).toNat)) else none
  | (f, n) :: r, x, ph =>
    if x < n then some (ph + BitVec.ofNat 32 (x * (Config.toneStep f 96000).toNat))
    else segAt carry r (x - n) (ph + BitVec.ofNat 32 (n * (Config.toneStep f 96000).toNat))

/-- The tag signal's sample `i` of the present output frame on line `k` (R313, R346). -/
def tagSample (d : Dev) (k i : Nat) : Int :=
  match tagSig d k with
  | none => 0
  | some s =>
    let x := sigPos d s + i
    let fade := match s.cut with | some c => 11 - (x - c) | none => 12
    if fade = 0 then 0
    else match segAt s.carry s.segs x 0 with
      | some ph => toneSample (dbAmp (rd d tagTagLevel) 0) ph fade
      | none => 0

/-- The tone term of a line's samples: a night tone or tag signalling, never both (R313, R346). -/
def toneTerm (d : Dev) (k i : Nat) : Int :=
  if tonePlays d k || ((supLine d k).fade.map (fun f => decide (nSamp d * ((workFrame d).toNat - f.first) < 12))).getD false then
    nightSample d k i
  else tagSample d k i

/-! ### The uplink (R346) -/

/-- The amplitude of 30 kHz in 96 samples of sense current (R346; its scale is a DESIGN CHOICE, log entry 143). -/
def iqAmp (l : List Int) : Word :=
  let s := (l.foldl (fun (a : Nat × Word × Word) x =>
    let t := turn (5 * a.1) 16
    (a.1 + 1, fadd a.2.1 (fmul (fint x) t.1), fsub a.2.2 (fmul (fint x) t.2))) (0, 0, 0)).2
  fdiv (hypot s.1 s.2) (fint 48)

/-- A lane waits for an uplink that begins at sample `x` of the signal. -/
def upFrom (x : Nat) : TagUp := { start := x, buf := [], carrier := none, halves := [] }

/-- One more sample of sense current (R346): the first 96 give the carrier's amplitude, every 96 after them a half-bit. A
half-bit with a concealed sample is not loaded, nor is any after a carrier with one (log entry 143). -/
def TagUp.feed (delta : Nat) (x : Option Int) (u : TagUp) : TagUp :=
  let buf := x :: u.buf
  if buf.length < 96 then { u with buf := buf }
  else
    let whole := buf.all (fun v => v.isSome)
    let amp := iqAmp (buf.reverse.map (fun v => v.getD 0))
    match u.carrier with
    | none => { u with buf := [], carrier := some (if whole then amp else w64 b64.infBits) }
    | some c => { u with buf := [], halves := u.halves ++ [whole && flt (fadd c (fint delta)) amp] }

/-- The bits of an uplink measured so far (R346). -/
def upBits : List Bool → List UpBit
  | a :: b :: r => (match a, b with
      | true, false => .zero | false, true => .one | true, true => .collision | false, false => .empty) :: upBits r
  | _ => []

/-- The sense frame that closes at a tick, measured by a lane: the sample of the signal displaced by BULK_DELAY (R346). -/
def tagSense (d : Dev) (l : TagLane) : TagLane :=
  match l.up, tagSig d l.line with
  | some u, some s =>
    let n := nSamp d
    let m := (workFrame d).toNat
    let fr := senseFrame d l.line
    { l with up := some ((List.range n).foldl (fun u (i : Nat) =>
      let x : Int := ((n * m + i : Nat) : Int) - (rd d (supBulkDelay l.line) + n * s.first : Nat)
      if x + 96 < u.start then u
      else u.feed (rd d tagUpDelta) (fr.map (fun f => (nth f i (0, 0)).2))) u) }
  | _, _ => l

/-- Signals that have ended are forgotten. -/
def tagAdvance (d : Dev) : Dev :=
  { d with tag := { d.tag with sigs := d.tag.sigs.filter (fun s =>
    let x := sigPos d s + nSamp d
    !(match s.cut with | some c => decide (c + 12 ≤ x) | none => false) && (segAt s.carry s.segs x 0).isSome) } }

/-- The carrier of line `k` ends with the tones already given. -/
def sigDone (k : Nat) (d : Dev) : Dev := onSig k (fun s => { s with carry := false }) d

/-- The signal of line `k` ends at the next frame with a fade (R348, R362). -/
def sigCut (k : Nat) (d : Dev) : Dev := onSig k (fun s => { s with cut := some (sigPos d s) }) d

/-! ### Wear records by tag -/

/-- The record of line `k` at a short address. -/
def recAt (d : Dev) (k a : Nat) : Option (Nat × WearRec) :=
  if wearPtr d k = 0 then none
  else ((List.range 64).map (fun i => (i, wearRec d k i))).find? (fun r => r.2.valid && r.2.present && r.2.saddr == a)

/-- The last write of a tag. -/
def lastSent (d : Dev) (id : Nat) : Option TagWrite := d.tag.writes.find? (fun w => w.id == id)

/-- A page-2 write to the tag is due and allowed (R345). -/
def mayWrite (d : Dev) (id : Nat) : Bool :=
  d.tag.dueDay == some (tagDay d) &&
  (match lastSent d id with | some w => w.day != tagDay d || w.differs | none => true)

/-- Page 2 as the module writes it (R344, R345). -/
def pageTwo (r : WearRec) (stamp : Word) : List Byte :=
  leBytes 8 r.dose ++ leBytes 4 r.overtemp ++ leBytes 4 0 ++ leBytes 8 stamp.toNat ++ leBytes 8 0

/-! ### Steps of a line (R353, R354) -/

/-- PASS_DONE once no line is queued and no lane works (R353). -/
def passCheck (d : Dev) : Dev :=
  if flag d tagPassActive && d.tag.queue.isEmpty && (List.range 24).all (fun i => (tagLane d i).isNone) then
    raise .tag 0 (wr d tagPassActive 0)
  else d

/-- A line fails: its record, event and reason (R353, R361, R363). -/
def lineFail (i k reason : Nat) (d : Dev) : Dev :=
  let d1 := wr (wr (putLane i none (sigDone k d)) (tagLstate k) 6) (tagReason k) reason
  passCheck (raise .tag 1 (logEv 0x4102 0 1 [(2, k), (2, reason)] 0 d1))

/-- Pages read of a tag. -/
def pageOf (l : TagLane) (a p : Nat) : Option (List Byte) :=
  (l.pages.find? (fun x => x.1 == a && x.2.1 == p)).map (fun x => x.2.2)

/-- A field of a page. -/
def pageField (p : List Byte) (o n : Nat) : Nat := ofLe ((p.drop o).take n)

/-- The larger of two doses (R354). -/
def maxDose (a b : Nat) : Nat := if flt (w64 a) (w64 b) then b else a

/-- A record updated from the pages read of its tag (R354). -/
def recFromPages (l : TagLane) (a : Nat) (r : WearRec) : WearRec :=
  let r0 := { r with saddr := a, present := true }
  let r1 := match pageOf l a 0 with
    | some p => { r0 with model := pageField p 8 2, rated := pageField p 0x0C 4 }
    | none => r0
  let r2 := match pageOf l a 1 with
    | some p => { r1 with tap := pageField p 0 4, install := pageField p 4 4 }
    | none => r1
  match pageOf l a 2 with
  | some p => { r2 with dose := maxDose r2.dose (pageField p 0 8), overtemp := max r2.overtemp (pageField p 8 4),
                        writes := pageField p 0x0C 4 }
  | none => r2

/-- A new record for a tag. -/
def newRec (l : TagLane) (a id : Nat) : WearRec :=
  let r := recFromPages l a { wearRecOf 0 with id := id, valid := true }
  match pageOf l a 2 with
  | some p => { r with last := pageField p 0x10 8 }
  | none => r

/-- The absent record with the oldest LAST_WRITE (R354). -/
def oldestAbsent (rs : List (Nat × WearRec)) : Option (Nat × WearRec) :=
  (rs.filter (fun r => !r.2.present)).foldl (fun m r => match m with
    | some x => if r.2.last < x.2.last then some r else some x
    | none => some r) none

/-- One tag found is matched to the records of its line (R354). -/
def matchTag (l : TagLane) (a id : Nat) (d : Dev) : Dev :=
  let k := l.line
  let rs := (List.range 64).map (fun i => (i, wearRec d k i))
  match rs.find? (fun r => r.2.valid && r.2.id == id) with
  | some r => putWearRec k r.1 (recFromPages l a r.2) d
  | none =>
    if (pageOf l a 0).isNone then d
    else match rs.find? (fun r => !r.2.valid) with
      | some r => putWearRec k r.1 (newRec l a id) d
      | none => match oldestAbsent rs with
        | some r => logEv 0x4105 0 0 [(2, k), (8, r.2.id)] 0 (putWearRec k r.1 (newRec l a id) d)
        | none => d

/-- The tags a lane found: short address and ID. -/
def foundTags (d : Dev) (l : TagLane) : List (Nat × Nat) :=
  (List.range (rd d (tagTags l.line))).filterMap (fun a =>
    match pageOf l a 0, l.ids[a]? with
    | some p, _ => some (a, pageField p 0 8)
    | none, some id => some (a, id.toNat)
    | none, none => none)

/-- The READ step ends: tags are matched to wear records (R354). -/
def matchTags (l : TagLane) (d : Dev) : Dev :=
  if wearPtr d l.line = 0 then d
  else
    let found := foundTags d l
    let gone := (List.range 64).filter (fun i =>
      let r := wearRec d l.line i
      r.valid && r.present && !found.any (fun f => f.2 == r.id))
    let d1 := forEach gone (fun i d => logEv 0x4104 0 1 [(2, l.line), (8, (wearRec d l.line i).id)] 0
      (putWearRec l.line i { wearRec d l.line i with present := false } d)) d
    forEach found (fun f d => matchTag l f.1 f.2 d) d1

/-- The reads of the READ step (R353). -/
def readTodo (n : Nat) : List (Nat × Nat) :=
  (List.range n).flatMap (fun a => [(0x10, a), (0x11, a), (0x12, a)])

/-- The writes of the WRITE_DUE step (R345, R353). -/
def writeTodo (d : Dev) (k : Nat) : List (Nat × Nat) :=
  if wearPtr d k = 0 then []
  else (((List.range 64).map (wearRec d k)).filter (fun r => r.valid && r.present && mayWrite d r.id)).map (fun r => (0x22, r.saddr))

/-- Line done: its lane is free (R353). -/
def lineDone (i k : Nat) (d : Dev) : Dev := passCheck (putLane i none (wr (sigDone k d) (tagLstate k) 5))

/-- A lane begins the first selected step at or after `s`; a step with nothing to do ends at once (R353). -/
def beginStep (i : Nat) (l : TagLane) (s : Nat) (d : Dev) : Dev :=
  let k := l.line
  if s ≤ 1 ∧ flag d tagEnum then
    putLane i (some { l with step := 1, tx := none, walk := none, todo := [] }) (wr d (tagLstate k) 2)
  else if s ≤ 2 ∧ flag d tagRead ∧ rd d (tagTags k) ≠ 0 then
    putLane i (some { l with step := 2, tx := none, walk := none, todo := readTodo (rd d (tagTags k)), pages := [] })
      (wr d (tagLstate k) 3)
  else
    let d1 := if s ≤ 2 ∧ flag d tagRead then matchTags { l with pages := [] } d else d
    let todo := writeTodo d1 k
    if s ≤ 3 ∧ flag d tagWriteDue ∧ !todo.isEmpty then
      putLane i (some { l with step := 3, tx := none, walk := none, todo := todo }) (wr d1 (tagLstate k) 4)
    else lineDone i k d1

/-- Writes at the head of the list that may not be made now are passed over (R345). -/
def dropBlocked (d : Dev) (k : Nat) : List (Nat × Nat) → List (Nat × Nat)
  | [] => []
  | (c, a) :: r =>
    if c = 0x22 ∧ !((recAt d k a).map (fun x => mayWrite d x.2.id)).getD false then dropBlocked d k r else (c, a) :: r

/-- A transaction ends; the step goes on, or the next begins. -/
def txEnd (i : Nat) (l : TagLane) (d : Dev) : Dev :=
  match l.tx with
  | none => d
  | some t =>
    let d1 := sigDone l.line d
    let todo := match l.todo with
      | (c, a) :: r => if c = t.cmd ∧ a = t.addr then r else l.todo
      | [] => []
    let todo1 := if l.step = 3 then dropBlocked d1 l.line todo else todo
    let l1 := { l with tx := none, todo := todo1, up := none }
    if todo1.isEmpty ∧ l.step = 2 then beginStep i l1 3 (matchTags l1 d1)
    else if todo1.isEmpty ∧ l.step = 3 then lineDone i l.line d1
    else putLane i (some l1) d1

/-! ### Commands of a lane (R350, R353) -/

/-- A lane takes up a frame to send. -/
def laneSend (i : Nat) (cmd addr : Nat) (ok : TagLane → Bool) (d : Dev) : Dev :=
  match tagLane d i with
  | some l => if l.tx.isNone && l.walk.isNone && ok l then
      putLane i (some { l with tx := some { cmd := cmd, addr := addr, sent := false, stamp := 0 } }) d else d
  | none => d

/-- TAG_LANE_ASSIGN: each free lane takes the lowest queued line (R353). -/
def doTagLaneAssign (d : Dev) : Dev :=
  forN 24 (fun i d =>
    if (tagLane d i).isSome || !flag d (hdrActive .tag) then d
    else match d.tag.queue with
      | [] => d
      | k :: r =>
        beginStep i { line := k, step := 0, tx := none, walk := none, ids := [], todo := [], pages := [], up := none } 1
          { d with tag := { d.tag with queue := r } }) d

/-- ENUM_START: the walk's command, when the lane's step calls for it (R351). -/
def doEnumStart (i : Nat) (d : Dev) : Dev := laneSend i 0x01 0xFFFF (fun l => l.step == 1) d

/-- PING (R350). -/
def doPing (i a : Nat) (d : Dev) : Dev := laneSend i 0x02 a (fun _ => true) d

/-- READ of a page by short address: pages 0 to 2 as the lane's step calls for them, and the integrator's pages, which no step
reads, whenever the lane is free (R350, R353; DEDUCED, log entry 146). -/
def doReadPage (i page a : Nat) (d : Dev) : Dev :=
  laneSend i (0x10 + page) a (fun l => decide (3 ≤ page) || l.todo.head? == some (0x10 + page, a)) d

/-- READ of a page by ID (R350). -/
def doReadPageId (i page : Nat) (id : Word) (d : Dev) : Dev := laneSend i (0x90 + page) id.toNat (fun _ => true) d

/-- WRITE of a page: the module writes only page 2 (R345). -/
def doWritePage (i page a : Nat) (d : Dev) : Dev :=
  laneSend i (0x20 + page) a (fun l => page == 2 && l.todo.head? == some (0x22, a)) d

/-- Frames a transaction takes (R346, R347, R350, R352). -/
def txFrames (cmd : Nat) : Nat :=
  if cmd = 1 then 92000
  else
    let addr := if 0x80 ≤ cmd then 64 else 16
    8 * (56 + addr + (if cmd / 16 = 2 then 256 else 0) + 3 + 2 * (56 + addr + 8 * replyLen cmd))

/-- Line `k` is clear of night groups for `n` frames (R348). -/
def clearOfNight (d : Dev) (k n : Nat) : Bool :=
  match d.sup.night with
  | none => true
  | some w =>
    let g := k / 24
    let b := w.frame.toNat + groupLen d * g
    let now := (workFrame d).toNat
    !bit w.groups g || !entNightEn (entryNow d k) || decide (now + n ≤ b) || decide (b + groupLen d ≤ now)

/-- Line `k` still carries the last tones of what it signalled, or their fade (R348, R351). -/
def tonesLeft (d : Dev) (k : Nat) : Bool :=
  match tagSig d k with
  | some s => (match s.cut with | some c => decide (sigPos d s < c + 12) | none => decide (sigPos d s < tonesLen s.segs))
  | none => false

/-- TAG_DOWNLINK_START: a lane's downlink starts at a frame tick whose number is a multiple of 8, once the tones before it have ended
(R346, R348, R351). -/
def doTagDownlinkStart (i : Nat) (d : Dev) : Dev :=
  match tagLane d i with
  | none => d
  | some l =>
    match l.tx with
    | none => d
    | some t =>
      let k := l.line
      if t.sent || is48 d || !flag d (hdrActive .tag) || d.clk.frame.toNat % 8 != 0 || d.clk.cycle != 0 ||
          tonesLeft d k || emergency d k ||
          !clearOfNight d k (txFrames t.cmd) then d
      else
        let go (data : List Byte) (stamp : Word) (walk : Option TagWalk) (d : Dev) : Dev :=
          let segs := bitTones (tagFrameBits t.cmd t.addr data)
          putLane i (some { l with
              tx := some { t with sent := true, stamp := stamp }, walk := walk
              up := some (upFrom (tonesLen segs + if walk.isSome then 96 else 192)) })
            (putSig { line := k, first := (workFrame d).toNat, segs := segs, carry := true, cut := none } d)
        if t.cmd = 0x01 then go [] 0 (some { known := [], first := true, waiting := [], ids := [] }) d
        else if t.cmd = 0x22 then
          match recAt d k t.addr with
          | some r =>
            if mayWrite d r.2.id then
              go (pageTwo r.2 (ptpNs d)) (ptpNs d) none { d with tag := { d.tag with
                writes := { id := r.2.id, day := tagDay d, stamp := ptpNs d, differs := false } ::
                  d.tag.writes.filter (fun w => w.id != r.2.id) } }
            else d
          | none => d
        else go [] 0 none d

/-! ### Enumeration (R351) -/

/-- The signal of a burst: the gap before the first, its bits and turnaround as carrier, the start symbol, a decision byte if
there is one, and the turnaround (R351). -/
def burstTones (first : Bool) (n : Nat) (dec : Option Nat) : List (Nat × Nat) :=
  (30000, 192 * n + 96 + if first then 96 else 0) ::
  (match dec with
   | none => [(29000, 96)]
   | some b => (31000, 96) :: bitTones (msbBits [BitVec.ofNat 8 b])) ++ [(30000, 96)]

/-- The samples of line `k`'s signal, without the carrier after them. -/
def sigLen (d : Dev) (k : Nat) : Nat := ((tagSig d k).map (fun s => tonesLen s.segs)).getD 0

/-- The value of bits, most significant first. -/
def bitsValue (l : List Bool) : Nat := l.foldl (fun n b => 2 * n + b2n b) 0

/-- The walk ends without addresses (R351, R353). -/
def walkAbort (i : Nat) (l : TagLane) (w : TagWalk) (code reason n : Nat) (d : Dev) : Dev :=
  let d1 := onSig l.line (fun s => { s with segs := s.segs ++ burstTones w.first n (some 0) }) d
  let d2 := wr d1 (tagTags l.line) 0
  lineFail i l.line reason (if code = 0 then d2 else captureErr .tag code l.line d2)

/-- The walk goes on after a decision. -/
def walkOn (i : Nat) (l : TagLane) (w : TagWalk) (n : Nat) (dec : Option Nat) (d : Dev) : Dev :=
  let d1 := onSig l.line (fun s => { s with segs := s.segs ++ burstTones w.first n dec }) d
  putLane i (some { l with walk := some { w with first := false }, up := some (upFrom (sigLen d1 l.line)) }) d1

/-- A tag has reached position 64: it takes the next address (R351). -/
def walkDone (i : Nat) (l : TagLane) (w : TagWalk) (known : List Bool) (n : Nat) (d : Dev) : Dev :=
  if 64 ≤ w.ids.length then walkAbort i l w 0x0101 2 n d
  else
    let ids := w.ids ++ [w64 (bitsValue known)]
    if w.waiting.isEmpty then
      let k := l.line
      let d1 := onSig k (fun s => { s with segs := s.segs ++ burstTones w.first n (some 0xC0) }) d
      let d2 := wr (wr d1 (tagTags k) ids.length) (tagLastWalkDay k) (tagDay d)
      beginStep i { l with ids := ids, walk := none, tx := none, up := none } 2
        (sigDone k (logEv 0x4101 0 0 [(2, k), (4, ids.length)] 0 d2))
    else
      let v := w.waiting.foldl max 0
      walkOn i l { w with known := known.take v ++ [true], waiting := w.waiting.filter (fun x => x != v), ids := ids } n
        (some (0x80 + v)) d

/-- Bits of the burst of a walk (R351). -/
def burstLen (w : TagWalk) : Nat := min 8 (64 - w.known.length)

/-- A burst is decided from its bits (R351). -/
def burstDecide (i : Nat) (l : TagLane) (w : TagWalk) (b : List UpBit) (d : Dev) : Dev :=
  let n := burstLen w
  if b.contains .empty then
    let none_ := w.first && b.head? == some .empty
    walkAbort i l w (if none_ then 0 else 0x0100) (if none_ then 0 else 1) n d
  else
    match b.findIdx? (fun x => x == .collision) with
    | some j =>
      let p := w.known.length + j
      let known := w.known ++ (b.take j).map (fun x => x == .one) ++ [false]
      walkOn i l { w with known := known, waiting := p :: w.waiting } n (some (0x40 + p)) d
    | none =>
      let known := w.known ++ b.map (fun x => x == .one)
      if known.length = 64 then walkDone i l w known n d
      else walkOn i l { w with known := known } n none d

/-- The bits that a lane has measured. -/
def laneBits (l : TagLane) : List UpBit := match l.up with | some u => upBits u.halves | none => []

/-- ENUM_BURST_END: the module decides a burst of line `k`, on lane `i`, once all its bits are measured (R346, R351). -/
def doEnumBurstEnd (i k : Nat) (d : Dev) : Dev :=
  match tagLane d i with
  | none => d
  | some l =>
    match l.walk with
    | none => d
    | some w =>
      if l.line != k || decide ((laneBits l).length < burstLen w) then d else burstDecide i l w ((laneBits l).take (burstLen w)) d

/-! ### Replies (R349, R350) -/

/-- A reply that a lane accepts: its payload, when CMD and ADDR are the transaction's. -/
def replyData (t : TagTx) (f : List Byte) : Option (List Byte) :=
  let a := if 0x80 ≤ t.cmd then 8 else 2
  let body := f.take (f.length - 2)
  if body.take (1 + a) = tagBody (t.cmd + 0x40) t.addr [] ∧ body.length = 1 + a + replyLen t.cmd then some (body.drop (1 + a))
  else none

/-- The ID at a short address of a lane's line: as page 0 gave it, as the walk of this pass found it, else as the record of the last
walk has it (R345, R351, R354). -/
def idAt (d : Dev) (l : TagLane) (a : Nat) : Option Nat :=
  match pageOf l a 0 with
  | some p => some (pageField p 0 8)
  | none => if l.ids.isEmpty then (recAt d l.line a).map (fun r => r.2.id) else (l.ids[a]?).map BitVec.toNat

/-- What a reply's payload changes. -/
def replyEffect (l : TagLane) (t : TagTx) (p : List Byte) (d : Dev) : Dev :=
  if t.cmd = 0x22 then
    match recAt d l.line t.addr with
    | none => d
    | some r =>
      match ofLe p with
      | 0 => putWearRec l.line r.1 { r.2 with last := t.stamp.toNat } (inc d tagWriteCount)
      | 2 => logEv 0x4103 0 1 [(2, l.line), (8, r.2.id)] 0 (putWearRec l.line r.1 { r.2 with worn := true } d)
      | _ => d
  else if t.cmd % 128 = 0x12 then
    let id := if 0x80 ≤ t.cmd then some t.addr else idAt d l t.addr
    { d with tag := { d.tag with writes := d.tag.writes.map (fun w =>
      if some w.id = id ∧ pageField p 0x10 8 ≠ w.stamp.toNat then { w with differs := true } else w) } }
  else d

/-- Bits of the reply to a transaction (R349). -/
def replyBits (t : TagTx) : Nat := 56 + (if 0x80 ≤ t.cmd then 64 else 16) + 8 * replyLen t.cmd

/-- A reply has begun: its first bit is not empty (R350; log entry 147). -/
def replyBegun (l : TagLane) : Bool := (laneBits l).head?.any (fun b => b != .empty)

/-- The bytes of a reply from CMD to CRC, from bits that are all 0 or 1, after PREAMBLE and SYNC (R349). -/
def replyFrame (b : List UpBit) : Option (List Byte) :=
  if b.any (fun x => x == .empty || x == .collision) then none
  else
    let v := b.map (fun x => x == .one)
    if bitsValue (v.take 32) = 0xAAAA2DD4 then
      some ((List.range ((v.length - 32) / 8)).map (fun j => BitVec.ofNat 8 (bitsValue ((v.drop (32 + 8 * j)).take 8))))
    else none

/-- A received reply is checked: one whose bits or CRC are wrong is counted, and a frame that is not this transaction's reply counts
as a reply that did not arrive (R349, R350). -/
def replyTake (i : Nat) (l : TagLane) (t : TagTx) (d : Dev) : Dev :=
  match replyFrame ((laneBits l).take (replyBits t)) with
  | none => txEnd i l (inc d tagCrcErrCount)
  | some f =>
    if ofBe (f.drop (f.length - 2)) ≠ crc16 (f.take (f.length - 2)) then txEnd i l (inc d tagCrcErrCount)
    else match replyData t f with
      | none => txEnd i l (inc d tagNoReplyCount)
      | some p =>
        let pages := if 0x10 ≤ t.cmd ∧ t.cmd < 0x18 then (t.addr, t.cmd - 0x10, p) :: l.pages else l.pages
        txEnd i { l with pages := pages } (replyEffect l t p d)

/-- TAG_REPLY_RX: a reply of line `k`, on lane `i`, that has begun has been measured to its end (R350). -/
def doTagReplyRx (i k : Nat) (d : Dev) : Dev :=
  match tagLane d i with
  | none => d
  | some l =>
    match l.tx with
    | none => d
    | some t =>
      if l.line != k || !t.sent || l.walk.isSome || !replyBegun l || decide ((laneBits l).length < replyBits t) then d
      else replyTake i l t d

/-- TAG_REPLY_TIMEOUT: no reply preamble has begun within 3 ms (R350). -/
def doTagReplyTimeout (i : Nat) (d : Dev) : Dev :=
  match tagLane d i with
  | none => d
  | some l =>
    match l.tx with
    | none => d
    | some t =>
      if t.sent && l.walk.isNone && !(laneBits l).isEmpty && !replyBegun l then txEnd i l (inc d tagNoReplyCount) else d

/-- TAG_WRITE_DUE: WRITE_OFFSET seconds into the day, page-2 writes become due (R345). -/
def doTagWriteDue (d : Dev) : Dev :=
  if writeOffset d * 1000000000 ≤ (ptpNs d).toNat % 86400000000000 then
    { d with tag := { d.tag with dueDay := some (tagDay d) } }
  else d

/-! ### Passes and abandoned transactions (R348, R353, R361, R362) -/

/-- Every lane is freed and the queue emptied (R353, R362). -/
def passDrop (d : Dev) : Dev :=
  let d1 := forN 24 (fun i d => match tagLane d i with
    | some l => wr (putLane i none (sigCut l.line d)) (tagLstate l.line) 0
    | none => d) d
  let d2 := forEach d1.tag.queue (fun k d => wr d (tagLstate k) 0) d1
  wr { d2 with tag := { d2.tag with queue := [] } } tagPassActive 0

/-- PASS_START at its commit point; `busy` says that a pass was running as it began (R353). -/
def passStartApply (busy : Bool) (mask : List W32) (d : Dev) : Dev :=
  if !flag d (hdrActive .tag) then d
  else if busy || flag d tagPassActive then captureErr .tag 0x0102 0 d
  else
    let lines := (List.range 192).filter (fun k =>
      bit (nth mask (k / 32) 0).toNat (k % 32) && lineUp d k && entTagEn (entryNow d k))
    let d1 := forEach lines (fun k d => wr (wr d (tagLstate k) 1) (tagReason k) 0) d
    passCheck (wr { d1 with tag := { d1.tag with queue := lines } } tagPassActive 1)

/-- A lane's transaction is abandoned for emergency audio or for a night group, to be made again: a READ is sent again as it was, a
WRITE after a READ of its page, and a walk from ENUM_START (R329, R345, R348). -/
def txAbandon (i : Nat) (l : TagLane) (t : TagTx) (d : Dev) : Dev :=
  putLane i (some { l with
    tx := if t.cmd % 128 / 16 = 1 then some { t with sent := false } else none
    walk := none
    up := none
    todo := if t.cmd = 0x22 then (0x12, t.addr) :: l.todo else l.todo }) (sigCut l.line d)

/-- A night group that sweeps line `k` begins with the next output frame, or has begun: TAG does not transmit on the line
(R329; a transaction under way is treated as under EMERGENCY: DEDUCED, log entry 148). -/
def nightNear (d : Dev) (k : Nat) : Bool :=
  match d.sup.night with
  | none => false
  | some w =>
    let b := w.frame.toNat + groupLen d * (k / 24)
    let n := (workFrame d).toNat
    bit w.groups (k / 24) && entNightEn (entryNow d k) && decide (b ≤ n + 1) && decide (n < b + groupLen d)

/-- The lanes at a tick (R329, R346, R348, R361). -/
def tagTick (d : Dev) : Dev :=
  forN 24 (fun i d => match tagLane d i with
    | none => d
    | some l0 =>
      let l := tagSense d l0
      if !lineUp d l.line || !entTagEn (entryNow d l.line) then lineFail i l.line 3 (sigCut l.line d)
      else match l.tx with
        | some t => if t.sent && (emergency d l.line || nightNear d l.line) then txAbandon i l t d else putLane i (some l) d
        | none => putLane i (some l) d) d

end Sys2Proof.Machine
end

