-- ==== Sys2Proof/Machine/Blocks.lean ====
section
/-! DEFINITION. The states of a block (R46, R53, R54): enable, quiesce and soft reset, and what each does in each block. -/

namespace Sys2Proof.Machine

/-- Blocks whose quiesce ends at the tick (R93, R271, R306, R340, R362, R383, and the twin link's). -/
def tickBlk : Blk → Bool
  | .cht | .seq | .strm _ | .sup | .tag | .wear | .ply _ | .twin => true
  | _ => false

/-- A block begins to run. -/
def blockStart (b : Blk) (d : Dev) : Dev :=
  match b with
  | .cht => { d with cht := { d.cht with stopped := false, cache := [] } }
  | .ply p => if pstate d p.val = 0 && !(ply d p.val).injecting && !d.bist.bootFailed then wr d (plyPstateState p.val) 1 else d
  | .rel => relDrive d
  | .strm i => igmpNet true i.val d
  | .tdm k => { d with strm := { d.strm with tdmStopped := tset (fun _ => false) d.strm.tdmStopped k.val false } }
  | _ => d

/-- What a block does as its quiesce ends. -/
def blockStop (b : Blk) (d : Dev) : Dev :=
  match b with
  | .cht => logEv 0x1304 0 1 [] 0 { d with cht := { d.cht with stopped := true, stopLogged := false, computing := none } }
  | .strm i => igmpNet false i.val d
  | .sup => supDisable d
  | .tag => passDrop d
  | .wear => wearDisable d
  | .ply p => plyStop p.val d
  | .tdm k => { d with strm := { d.strm with tdmStopped := tset (fun _ => false) d.strm.tdmStopped k.val true } }
  | .cont => contDisable d
  | .seq => { d with seq := { d.seq with stopped := true } }
  | .ptp => if rd d ptpState = 0 then d else ptpHold d
  | _ => d

/-- A quiesce ends: Idle, or Running where EN was set during it (R53). -/
def quiesceEnd (b : Blk) (d : Dev) : Dev :=
  if flag d (hdrQuiescing b) then
    let d1 := wr (blockStop b d) (hdrQuiescing b) 0
    if flag d1 (hdrPendEn b) then blockStart b (wr (wr d1 (hdrPendEn b) 0) (hdrActive b) 1) else d1
  else d

/-- EN cleared by software (R53): the Spindle drops its channels, the relay drivers go off at once, the clock servo goes
into holdover (R238, R307, R454). -/
def enClear (b : Blk) (d : Dev) : Dev :=
  let d1 := disable b d
  match b with
  | .spindle => spDropAll d1
  | .rel => relDrive d1
  | .ptp => ptpHold d1
  | _ => d1

/-- An error captured by the fabric: under HALT_ON_ERR the first one clears EN, with all that a clearing does (R44, R52,
R238). -/
def captureHalt (b : Blk) (code detail : Nat) (d : Dev) : Dev :=
  let d1 := captureErr b code detail d
  if flag d (hdrEn b) && !flag d1 (hdrEn b) then
    (match b with
      | .spindle => spDropAll d1
      | .rel => relDrive d1
      | .ptp => ptpHold d1
      | _ => d1)
  else d1

/-- EN set by software (R53). A block that failed its last test stays disabled (R417, R421; that EN then reads 0 is DEDUCED, log
entry 174). -/
def enSet (b : Blk) (d : Dev) : Dev :=
  let d1 := wr d (hdrEn b) 1
  if testFailed d b then d
  else if flag d (hdrActive b) then d1
  else if flag d (hdrQuiescing b) then wr d1 (hdrPendEn b) 1
  else blockStart b (wr d1 (hdrActive b) 1)

/-- A block still has work that it finishes before its quiesce ends: a channel that waits for responses (R238), a
storage command (R433), a test (R421), a request that awaits its commit (R64), a core's bobbin operation that came before EN was
cleared (R279). -/
def workLeft (b : Blk) (d : Dev) : Bool :=
  match b with
  | .spindle => spBusy d
  | .stor => d.stor.op.isSome
  | .bist => !d.bist.testing.isEmpty
  | .gw => d.gw.waiting.any (fun e => e.2.isSome)
  | .bobbin => d.cores.any (fun c => c.2.ext.any (fun o => match o.work with | .bobbin _ _ _ run => run | _ => false))
  | _ => false

/-- QUIESCE_COMPLETE: a block outside the tick's reach has finished its work (R53). -/
def doQuiesceComplete (b : Blk) (d : Dev) : Dev := if tickBlk b || workLeft b d then d else quiesceEnd b d

/-- The work of a block that a command of its own would still finish, dropped: requests awaiting commit, tests, channels'
requests, a storage command, a record in progress (R46, R54). -/
def dropWork (b : Blk) (d : Dev) : Dev :=
  match b with
  | .gw => { d with gw := { d.gw with waiting := [] } }
  | .spindle => spAbandon d
  | .bist => wr (wr (wr { d with bist := { d.bist with testing := [], group := 0, pass := 0, wakeHeld := false } }
      bistPstatusBusy 0) bistPstatusCur 0) bistRun 0
  | .log => { d with log := { d.log with retry := false } }
  | .stor => wr (wr { d with stor := { d.stor with op := none } } storCmdStatusBusy 0) storCmdGo 0
  | .bobbin => bobAbandon d
  | _ => d

/-- QUIESCE_TIMEOUT: what remains is dropped, and the quiesce ends (R54). DETAIL of this code is 0 (DESIGN CHOICE, log
entry 117). -/
def doQuiesceTimeout (b : Blk) (d : Dev) : Dev :=
  if flag d (hdrQuiescing b) then quiesceEnd b (captureHalt b 0x0002 0 (dropWork b d)) else d

/-- The quiesces that end at a tick. -/
def tickQuiesce (d : Dev) : Dev := forEach (allBlks.filter (fun b => tickBlk b && b != .twin)) quiesceEnd d

/-! ### SOFT_RST (R46) -/

/-- The state a block keeps outside its registers, dropped without a quiesce (R46). -/
def blockDrop (b : Blk) (d : Dev) : Dev :=
  match b with
  | .mod | .rel => d
  | .bist => dropWork .bist d
  | .gw => { d with gw := { Gw.reset with keys := d.gw.keys } }
  | .hue h => { d with bob := { d.bob with staged := d.bob.staged.filter (fun e => e.1 / 8192 != h.val) } }
  | .evc => { d with evc := .reset }
  | .spindle => spForget (spAbandon d)
  | .bobbin => let d1 := bobAbandon d; { d1 with bob := { d1.bob with cache := [] } }
  | .cht => { d with cht := { ChtSt.reset with routes := d.cht.routes } }
  | .seq => seqDropAll d
  | .log => { d with log := { LogSt.reset with crimson := d.log.crimson } }
  | .ply p =>
    let d1 := plyStop p.val d
    { d1 with ply := tset (fun _ => PlySt.reset) d1.ply p.val PlySt.reset }
  | .strm i =>
    if i = 0 then { d with strm := { d.strm with filed := [], conceal := [], conflicts := [] } }
    else { d with strm := { d.strm with filed := d.strm.filed.filter (fun e => e.1 % 4 != i.val) } }
  | .ptp => { d with ptp := { PtpSt.reset with running := d.ptp.running, steps := d.ptp.steps } }
  | .tdm k => { d with strm := { d.strm with tdmStopped := tset (fun _ => false) d.strm.tdmStopped k.val true } }
  | .sup => { d with sup := .reset }
  | .tag => { passDrop d with tag := { TagSt.reset with writes := d.tag.writes } }
  | .wear => { d with wear := { WearSt.reset with recs := d.wear.recs } }
  | .twin => renumber { d with twin := { TwinSt.reset with dying := d.twin.dying, peerLine := d.twin.peerLine } }
  | .cont => { d with cont := { d.cont with inputs := [], thrAt := none, ports := [], finished := [] } }
  | .stor => { d with stor := { d.stor with op := none } }

/-- The bits of a register word that a reset of its block leaves: OWNER_HUE and ACCESS_ERR_COUNT (R46), straps, values
of the part, and what the manual gives no reset value. -/
def keepOnReset (b : Blk) (a : Nat) : Nat :=
  let o := a - blkBase b
  if o = 0x24 ∨ o = 0x28 then 0xFFFFFFFF
  else match b with
    | .mod => if o = 0x04 ∨ o = 0x40 ∨ o = 0x44 then 0xFFFFFFFF else 0
    | .strm _ => if o = 0x44 ∨ o = 0x48 then 0xFFFFFFFF else 0
    | .bist => if o = 0x48 then 0x38 else if o = 0x4C ∨ o = 0x50 ∨ o = 0x54 then 0xFFFFFFFF else 0
    | .stor => if o = 0x40 then 7 else if o = 0x44 ∨ o = 0x48 ∨ o = 0x4C then 0xFFFFFFFF else 0
    | _ => 0

/-- A block's registers back at their reset values (R46). -/
def resetWords (b : Blk) (d : Dev) : Dev :=
  let lo := blkBase b
  let hi := lo + (blkInfo b).2.2.1 * 0x1000
  let mine := d.regs.filter (fun e => decide (lo ≤ e.1) && decide (e.1 < hi))
  forEach mine (fun e d =>
    let m := BitVec.ofNat 32 (keepOnReset b e.1)
    wrw d e.1 ((e.2 &&& m) ||| (regReset e.1 &&& ~~~m))) d

/-- SOFT_RST written 1: work in flight is dropped; EN and HALT_ON_ERR of the word are held, and HALT_ON_ERR shows the held
value already while SOFT_RST reads 1 (R46; DESIGN CHOICE, log entry 118). -/
def softRstStart (b : Blk) (w : Nat) (d : Dev) : Dev :=
  let d1 := blockDrop b d
  let d2 := wr (wr (wr (wr d1 (hdrEn b) 0) (hdrActive b) 0) (hdrQuiescing b) 0) (hdrSoftRst b) 1
  wr (wr d2 (hdrPendEn b) (w % 2)) (hdrHalt b) (w / 4 % 2)

/-- A write of CTRL while SOFT_RST reads 1 (R46). -/
def softRstHold (b : Blk) (w : Nat) (d : Dev) : Dev := wr (wr d (hdrPendEn b) (w % 2)) (hdrHalt b) (w / 4 % 2)

/-- SOFT_RST_COMPLETE: registers at their reset values, then Idle or Running (R46, R53). -/
def doSoftRstComplete (b : Blk) (d : Dev) : Dev :=
  if flag d (hdrSoftRst b) then
    let en := flag d (hdrPendEn b)
    let d1 := wr (resetWords b d) (hdrHalt b) (rd d (hdrHalt b))
    let d2 := match b with | .seq => seqResetRecords d1 | .rel => relDrive d1 | .bobbin => bobLineHues d1 | .hue _ => ringClear d1 | _ => d1
    if en then enSet b d2 else d2
  else d

/-- A write of CTRL (R43, R46, R53). -/
def ctrlWrite (b : Blk) (w : Nat) (d : Dev) : Dev :=
  if flag d (hdrSoftRst b) then softRstHold b w d
  else if bit w 1 then softRstStart b w d
  else
    let d1 := wr d (hdrHalt b) (w / 4 % 2)
    if bit w 0 then enSet b d1 else if flag d1 (hdrEn b) then enClear b d1 else wr d1 (hdrPendEn b) 0

end Sys2Proof.Machine
end

