-- ==== Sys2Proof/Machine/Crypto.lean ====
section
/-! DEFINITION. SHA-256 (FIPS 180-4), HMAC-SHA-256 (RFC 2104) and ECDSA P-256 verification (FIPS 186-4), as R63 and R414
name them. -/

namespace Sys2Proof.Machine

/-! ### SHA-256

FIPS 180-4 gives its constants as fractional parts of roots of primes and its message schedule as a recurrence. Both are
taken at their word: the constants are computed, and the schedule is a window of 16 words that moves with the rounds. -/

/-- The largest `r` whose `k`-th power is at most `n`, by its bits below `b`, on top of `r`. -/
def rootFloor (k n : Nat) : Nat → Nat → Nat
  | 0, r => r
  | b + 1, r => rootFloor k n b (if (r + 2 ^ b) ^ k ≤ n then r + 2 ^ b else r)

/-- The first 64 primes: 311 is the last, and a composite up to it has a factor below 18. -/
def shaPrimes : List Nat :=
  (List.range 312).filter (fun n => decide (2 ≤ n) && (List.range 16).all (fun f => n == f + 2 || n % (f + 2) != 0))

/-- The first 32 bits of the fractional part of the `k`-th root of a prime. -/
def rootFrac (k p : Nat) : W32 := BitVec.ofNat 32 (rootFloor k (p * 2 ^ (32 * k)) 35 0)

/-- A word turned right by each count of a list, and the results added without carry. -/
def turns (l : List Nat) (x : W32) : W32 := l.foldl (fun y n => y ^^^ x.rotateRight n) 0

/-- One round on the eight working words, `x` being the round's constant plus its message word: seven of them move up,
one of these takes the round's sum, and the eighth place is filled anew. -/
def shaTurn (s : List W32) (x : W32) : List W32 :=
  let e := nth s 4 0
  let t := x + nth s 7 0 + turns [6, 11, 25] e + (nth s 6 0 ^^^ (e &&& (nth s 5 0 ^^^ nth s 6 0)))
  let two := (nth s 0 0 &&& (nth s 1 0 ||| nth s 2 0)) ||| (nth s 1 0 &&& nth s 2 0)
  (t + turns [2, 13, 22] (nth s 0 0) + two) :: (s.take 7).modify 3 (· + t)

/-- The rounds of a block, one to a constant; the window holds the next 16 message words, the nearest first. -/
def shaRounds : List W32 → List W32 → List W32 → List W32
  | [], _, s => s
  | k :: ks, win, s =>
    let near := nth win 1 0
    let far := nth win 14 0
    let w := nth win 0 0 + (turns [7, 18] near ^^^ (near >>> 3)) + nth win 9 0 + (turns [17, 19] far ^^^ (far >>> 10))
    shaRounds ks (win.drop 1 ++ [w]) (shaTurn s (k + nth win 0 0))

/-- Block `i` of a padded message worked into the hash value. -/
def shaBlock (ks : List W32) (l : List Byte) (h : List W32) (i : Nat) : List W32 :=
  let win := (List.range 16).map (fun j => BitVec.ofNat 32 (ofBe ((l.drop (64 * i + 4 * j)).take 4)))
  List.zipWith (· + ·) h (shaRounds ks win h)

/-- The padding of a message. -/
def shaPad (l : List Byte) : List Byte :=
  l ++ [0x80] ++ List.replicate ((119 - l.length % 64) % 64) 0 ++ beBytes 8 (8 * l.length)

/-- The SHA-256 digest. -/
def sha256 (l : List Byte) : List Byte :=
  let p := shaPad l
  let h0 := (shaPrimes.take 8).map (rootFrac 2)
  ((List.range (p.length / 64)).foldl (shaBlock (shaPrimes.map (rootFrac 3)) p) h0).flatMap (fun w => beBytes 4 w.toNat)

/-- HMAC-SHA-256 with a key of 32 bytes. -/
def hmacSha256 (key l : List Byte) : List Byte :=
  let k := key ++ List.replicate 32 0
  sha256 (k.map (· ^^^ 0x5C) ++ sha256 (k.map (· ^^^ 0x36) ++ l))

/-! ### P-256 -/

/-- The field prime. -/
def p256p : Nat := 0xffffffff00000001000000000000000000000000ffffffffffffffffffffffff
/-- The order of the base point. -/
def p256n : Nat := 0xffffffff00000000ffffffffffffffffbce6faada7179e84f3b9cac2fc632551
/-- The curve's constant b. -/
def p256b : Nat := 0x5ac635d8aa3a93e7b3ebbd55769886bc651d06b0cc53b0f63bce3c3e27d2604b
/-- The base point. -/
def p256g : Nat × Nat :=
  (0x6b17d1f2e12c4247f8bce6e563a440f277037d812deb33a0f4a13945d898c296,
   0x4fe342e2fe1a7f9b8ee7eb4a7c0f9e162bce33576b315ececbb6406837bf51f5)

/-- `x ^ e` modulo `m`, by the low `n` bits of `e`. -/
def powMod (m : Nat) : Nat → Nat → Nat → Nat
  | 0, _, _ => 1
  | n + 1, x, e => powMod m n (x * x % m) (e / 2) * (if e % 2 = 1 then x else 1) % m

/-- The inverse modulo a prime of at most 256 bits. -/
def invMod (m x : Nat) : Nat := powMod m 256 x (m - 2)

/-- The sum of two points; none is the point at infinity. -/
def ecAdd : Option (Nat × Nat) → Option (Nat × Nat) → Option (Nat × Nat)
  | none, q => q
  | p, none => p
  | some (x1, y1), some (x2, y2) =>
    let p := p256p
    let go (l : Nat) : Option (Nat × Nat) :=
      let x := (l * l + 2 * p - x1 - x2) % p
      some (x, (l * (x1 + p - x) + p - y1) % p)
    if x1 = x2 then
      if y1 = y2 ∧ y1 ≠ 0 then go ((3 * x1 * x1 + p - 3) * invMod p (2 * y1) % p) else none
    else go ((y2 + p - y1) * invMod p ((x2 + p - x1) % p) % p)

/-- A multiple of a point, by the low `n` bits of `k`. -/
def ecMul : Nat → Nat → Option (Nat × Nat) → Option (Nat × Nat)
  | 0, _, _ => none
  | n + 1, k, q => ecAdd (if k % 2 = 1 then q else none) (ecMul n (k / 2) (ecAdd q q))

/-- A point of the curve other than the one at infinity. -/
def onCurve (x y : Nat) : Bool :=
  decide (x < p256p) && decide (y < p256p) && y * y % p256p == (x * x * x + (p256p - 3) * x + p256b) % p256p

/-- ECDSA P-256 verification of a signature over a message's SHA-256 digest. -/
def ecdsaOk (pub : Nat × Nat) (r s : Nat) (msg : List Byte) : Bool :=
  if onCurve pub.1 pub.2 ∧ 0 < r ∧ r < p256n ∧ 0 < s ∧ s < p256n then
    let w := invMod p256n s
    let z := ofBe (sha256 msg)
    match ecAdd (ecMul 256 (z * w % p256n) (some p256g)) (ecMul 256 (r * w % p256n) (some pub)) with
    | some q => q.1 % p256n == r
    | none => false
  else false

end Sys2Proof.Machine
end

