-- ==== Sys2Proof/Machine/Stor.lean ====
section
/-! DEFINITION. STOR (R428 to R430, R433): the log area, the message store's items and the boot NOR commands. -/

namespace Sys2Proof.Machine

/-! ### The log area (R428) -/

/-- A record kept in the log area under its number. -/
def logKeep (x : Nat × List Byte) (d : Dev) : Dev :=
  { d with stor := { d.stor with logArea := tset (fun _ => none) d.stor.logArea x.1 (some x.2) } }

/-- LOG_PERSIST_COPY: the oldest record not yet copied goes to the log area (R428). -/
def doLogPersistCopy (d : Dev) : Dev :=
  match d.stor.logPend with
  | [] => d
  | x :: r => logKeep x { d with stor := { d.stor with logPend := r } }

/-- Every log record up to the last queued is persisted; those still queued under the numbers they will carry
(R424, R428). -/
def logPersistAll (d : Dev) : Dev :=
  let queued := (d.log.series ++ d.log.fifo).mapIdx (fun i r => (rd d logSeqno + i, recBytes r (rd d logSeqno + i)))
  forEach (d.stor.logPend ++ queued) logKeep { d with stor := { d.stor with logPend := [] } }

/-! ### NOR and items -/

/-- Where a NOR device is mapped: A or B (R413). -/
def norBase (b : Bool) : Nat := if b then 0x0C000000 else 0x08000000

/-- The record area: the last 256 KiB of the device that holds image B (R413). -/
def recordArea : Nat := 0x0FFC0000

/-- Bytes of a NOR range erased: they read as all ones. -/
def norErase (a n : Nat) (d : Dev) : Dev :=
  { d with mem := d.mem.filter (fun e => !(decide (a ≤ e.1) && decide (e.1 < a + n))) }

/-- Bytes programmed into NOR: a bit goes from 1 to 0 only (PRESUMED, log entry 41). -/
def norProgram (a : Nat) (l : List Byte) (d : Dev) : Dev :=
  wrBytes d a (l.mapIdx (fun i b => b &&& rdB d (a + i)))

/-- The device a NOR command names, and the address of its first byte (R433). -/
def norTarget (o : StorOp) : Bool × Nat := (bit o.target 31, norBase (bit o.target 31) + o.target % 2 ^ 31)

/-- Bytes of the booted image, header and body (R413). -/
def imageSpan (d : Dev) : Nat := 0x1000 + rdN d (norBase (flag d storBootedB) + 0x10) 4

/-- A player is bound to the item (R430). -/
def itemBound (d : Dev) (item : Nat) : Bool :=
  (List.range 64).any (fun p => (playerGet d p).slot.isSome && (playerGet d p).item.toNat == item)

/-- The buffer of a command lies in DRAM (R433). -/
def bufferOk (o : StorOp) : Bool := o.len == 0 || (inDram o.addr && inDram (o.addr + o.len - 1))

/-- Why a command is refused, 0 for not at all: 1 IMAGE_IN_USE, 2 PROTECTED, 3 ITEM_BOUND, 4 BAD_ARGUMENT (R430, R433). -/
def storReason (d : Dev) (o : StorOp) : Nat :=
  let t := norTarget o
  if o.op = 1 ∨ o.op = 2 then
    if 0x4000000 < o.target % 2 ^ 31 + o.len ∨ (o.op = 2 ∧ !bufferOk o) then 4
    else if t.1 == flag d storBootedB && overlaps t.2 o.len (norBase t.1) (imageSpan d) then 1
    else if overlaps t.2 o.len recordArea 0x40000 then 2
    else 0
  else if o.op = 3 ∨ o.op = 4 then
    if o.op = 3 ∧ !bufferOk o then 4 else if itemBound d o.target then 3 else 0
  else if o.op = 5 then 0 else 4

/-- GO written 1: OP starts, or is refused; GO reads 1 while a command runs (R433). -/
def storGo (d : Dev) : Dev :=
  if flag d storCmdStatusBusy then d
  else
    let o : StorOp := { op := rd d storCmdOp, addr := rd64 d storArgAddrLo storArgAddrHi, target := rd d storArgTarget,
                        len := rd d storArgLen }
    let r := storReason d o
    let d1 := wr (wr d storCmdStatusReason r) storCmdStatusDone 0
    if r ≠ 0 then wr d1 storCmdStatusFailed 1
    else
      let d2 := wr (wr (wr d1 storCmdStatusFailed 0) storCmdStatusBusy 1) storCmdGo 1
      { d2 with stor := { d2.stor with op := some o } }

/-- What a completed command leaves (R428 to R430, R433). -/
def storEffect (o : StorOp) (d : Dev) : Dev :=
  if o.op = 1 then norErase (norTarget o).2 o.len d
  else if o.op = 2 then norProgram (norTarget o).2 (rdBytes d o.addr o.len) d
  else if o.op = 3 then
    { d with stor := { d.stor with items := tset (fun _ => none) d.stor.items o.target (some (rdBytes d o.addr o.len)) } }
  else if o.op = 4 then { d with stor := { d.stor with items := tset (fun _ => none) d.stor.items o.target none } }
  else logPersistAll d

/-- STOR_CMD_DONE: the command that runs completes or fails (R433). -/
def doStorCmdDone (ok : Bool) (d : Dev) : Dev :=
  match d.stor.op with
  | none => d
  | some o =>
    let d1 := wr (wr { d with stor := { d.stor with op := none } } storCmdStatusBusy 0) storCmdGo 0
    if ok then raise .stor 0 (wr (storEffect o d1) storCmdStatusDone 1)
    else raise .stor 0 (wr (captureErr .stor 0x0100 0 d1) storCmdStatusFailed 1)

end Sys2Proof.Machine
end

