-- ==== Sys2Proof/Machine/Twin.lean ====
section
/-! DEFINITION. Twin pairing and the Apdin link (R386 to R412): states, heartbeat, link, agreement on inputs and
control changes, hashes, joining, takeover and split brain. -/

namespace Sys2Proof.Machine

/-- A twin state change, with the device beside it. -/
abbrev RD := Role × Dev

/-- The device changed beside the role. -/
def onD (f : Dev → Dev) (x : RD) : RD := (x.1, f x.2)

/-- The twin block's record changed. -/
def onTwin (f : TwinSt → TwinSt) (d : Dev) : Dev := { d with twin := f d.twin }

/-- STATE as `TWIN.STATUS` reads it (R412). -/
def stCode : TwinState → Nat
  | .startUp => 0
  | .joining => 1
  | .partner => 2
  | .owner => 3
  | .alone => 4
  | .quiet => 5

/-- The module transmits: OWNER, PARTNER or ALONE (R389, R401). -/
def isLive (st : TwinState) : Bool := st == .owner || st == .partner || st == .alone

/-- The module drives its ownership line and feeds the selector: OWNER or ALONE (R387). -/
def ownsTdm (st : TwinState) : Bool := st == .owner || st == .alone

/-- Lanes in use (R392). -/
def laneCount (d : Dev) : Nat := (List.range 4).foldl (fun n i => n + b2n (bit d.twin.lanes i)) 0

/-- The role in a new state: ownership line low in OWNER and ALONE, heartbeat in OWNER, PARTNER and ALONE
(R387, R389). -/
def roleIn (st : TwinState) (hold : Bool) (r : Role) : Role :=
  { r with state := st, ownLow := ownsTdm st, beating := isLive st, hold := hold }

/-- The module watches for its peer, or watches no more (R408). Without carrier lines it joins the group of WITNESS_IP on network
A while it watches, beside what its streams receive of it. -/
def watchSplit (v : Option Nat) (d : Dev) : Dev :=
  let g := rd d twinWitnessIp
  let own := igmpFilter d 0 g
  let joins := !flag d twinTwinCfgWired && strmRunning d 0 && isMulticast g && v.isSome != d.twin.split.isSome
  let d1 := { d with twin := { d.twin with split := v } }
  if !joins then d1 else if v.isSome then igmpChange 0 g own (true, []) d1 else igmpChange 0 g (true, []) own d1

/-- The twin state changes: the lines, the record with its severity, LAST_CHANGE_FRAME, STATE_CHANGE and a STATE
message (R387, R389, R395, R405, R412). The encoding of a record's reason is open. -/
def enterHold (st : TwinState) (hold : Bool) (sev : Nat) (x : RD) : RD :=
  let r := x.1
  if r.state = st then (roleIn st (hold || r.hold) r, x.2)
  else
    let v := (freshVal x.2).toNat % 2 ^ 16
    let d0 := if r.state = .partner then ptpUnfollow (freshNext x.2) else freshNext x.2
    let d1 := logEv 0x5001 0 sev [(2, stCode r.state), (2, stCode st), (2, v)] 0 d0
    let d2 := raise .twin 0 (wr64 d1 twinLastChangeFrameLo twinLastChangeFrameHi d1.clk.frame.toNat)
    let d3 := sendMsg (.state st hold d2.twin.peerSilent) d2
    (roleIn st hold r, watchSplit none { d3 with twin := { d3.twin with joinAge := 0 } })

/-- A state entered without a hold. -/
def enter (st : TwinState) (sev : Nat) (x : RD) : RD := if x.2.bist.bootFailed then x else enterHold st false sev x

/-- Takeover (R407): ALONE, and every unsealed change, forwarded ones among them, is held for the next commit point. -/
def takeover (x : RD) : RD :=
  let y := enter .alone 1 x
  onD (fun d => d.commit.forwarded.foldl (fun d f => numberChange f.1 f.2 d)
    { d with commit := { d.commit with forwarded := [] } }) y

/-- Takeover from a peer found silent (R407). -/
def takeoverSilent (x : RD) : RD :=
  onD (fun d => { d with twin := { d.twin with silentAt := some d.clk.frame } }) (takeover x)

/-- The peer's ownership line is held against its last STATE while its heartbeat comes: disagreement at two tests in a row is a
broken line, recorded once (R390, R410; DESIGN CHOICE, log entry 171). -/
def ownLineCheck (alive : Bool) (d : Dev) : Dev :=
  let t := d.twin
  let bad := t.linkUp && alive && t.peerOwnLow != ownsTdm t.peer
  let n := if bad then min 2 (t.ownMiss + 1) else 0
  let d1 := { d with twin := { t with ownMiss := n } }
  if n = 2 ∧ t.ownMiss = 1 then logFree 0x5004 (some 1) (fun v => [(2, v)]) (raise .twin 4 d1) else d1

/-- HEARTBEAT_TEST: the peer's two paths tested at the middle of a sample, and its ownership line read (R387, R390). An
abdication in the same sample comes before a takeover (R411; DESIGN CHOICE, log entry 172). -/
def doHeartbeatTest (lines : PeerLines) (x : RD) : RD :=
  let d := x.2
  let t := d.twin
  let line := lines.beat == t.peerLine
  let link := !t.beats.contains d.clk.sample
  let wired := flag d twinTwinCfgWired
  let d0 := onTwin (fun t => { t with peerLine := lines.beat, peerToggled := !line, peerOwnLow := wired && lines.own,
                                      beats := t.beats.filter (fun i => i == (d.clk.sample + 1) % nSamp d) }) d
  if !wired then (x.1, d0)
  else
    let d1 := ownLineCheck (!line) d0
    if line && link then
      let d2 := if t.peerSilent then d1 else raise .twin 1 (onTwin (fun t => { t with peerSilent := true }) d1)
      match x.1.state with
      | .partner => takeoverSilent (x.1, d2)
      | .owner => takeoverSilent (x.1, d2)
      | .quiet => if x.1.hold || t.abdicatedAt == some (d.clk.frame, d.clk.sample) then (x.1, d2) else takeoverSilent (x.1, d2)
      | _ => (x.1, d2)
    else if line || link then
      let d2 := onTwin (fun t => { t with peerSilent := false, lineSpell := line, linkSpell := link })
        (inc d1 twinBeatMissCount)
      let new := (line && !t.lineSpell) || (link && !t.linkSpell)
      (x.1, if new then logFree 0x5004 (some 1) (fun v => [(2, v)]) (raise .twin 4 d2) else d2)
    else (x.1, onTwin (fun t => { t with peerSilent := false, lineSpell := false, linkSpell := false }) d1)

/-- A join given up: QUIET with JOIN_TIMEOUT (R405, R411). -/
def joinFails (x : RD) : RD := enter .quiet 1 (onD (captureErr .twin 0x106 0) x)

/-- The link goes down: what each state does (R405, R408). -/
def linkDown (x : RD) : RD :=
  let d := x.2
  if !d.twin.linkUp then x
  else
    let d1 := ptpUnfollow (onTwin (fun t => { t with linkUp := false, lanes := 0, unacked := [], sent := none, copying := [] }) d)
    let d2 := logEv 0x5003 0 1 [(2, 0)] 0 (raise .twin 2 (captureErr .twin 0x105 0 d1))
    let y := (x.1, d2)
    let watch (y : RD) : RD := onD (fun d => watchSplit (some 0) (onTwin (fun t => { t with witness := false }) d)) y
    match x.1.state with
    | .owner => if flag d twinTwinCfgWired then (if d.twin.peerToggled then y else takeover y) else watch y
    | .partner => if flag d twinTwinCfgWired then (if d.twin.peerToggled then enter .quiet 1 y else takeover y) else watch y
    | .joining => joinFails y
    | .startUp => watch y
    | _ => y

/-- Frames a module watches before the split-brain rules decide (R408). -/
def splitFrames (st : TwinState) (wired slotB : Bool) : Nat :=
  match st with
  | .owner => 16
  | .partner => 8
  | _ => if wired then (if slotB then 8 else 0) else (if slotB then 16 else 8)

/-- SPLIT_BRAIN_TIMEOUT: the watched frames are over (R408). -/
def doSplitBrainTimeout (x : RD) : RD :=
  let d := x.2
  match d.twin.split with
  | none => x
  | some n =>
    if d.twin.linkUp || decide (n < splitFrames x.1.state (flag d twinTwinCfgWired) (slotB d)) then x
    else match x.1.state with
      | .owner => takeover x
      | .partner => if d.twin.witness then enter .quiet 1 x else takeover x
      | .startUp =>
        let seen := if flag d twinTwinCfgWired then d.twin.peerOwnLow else d.twin.witness
        if seen then enter .quiet 1 x else enter .alone 1 x
      | _ => x

/-- WITNESS_PACKET_RX: a packet from the pair address shows the peer alive to a watcher (R408). -/
def doWitnessPacketRx (x : RD) : RD :=
  let d := x.2
  if d.twin.split.isNone || flag d twinTwinCfgWired then x
  else
    let y := onD (onTwin (fun t => { t with witness := true })) x
    match x.1.state with
    | .partner => enter .quiet 1 y
    | .startUp => enter .quiet 1 y
    | _ => y

/-- A media packet from the pair address on network A to the witness address and port (R408). -/
def isWitness (pkt : MediaPacket) (d : Dev) : Bool :=
  pkt.net.val == 0 && pkt.plain && pkt.src.toNat == rd d (strmPairIp 0) && pkt.dst.toNat == rd d twinWitnessIp &&
    pkt.port.toNat == rd d twinWitnessPort

/-! ### The link (R392 to R395) -/

/-- TYPE of a message (R395). -/
def msgType : Msg → Nat
  | .hello _ => 0x01
  | .beat _ _ _ => 0x02
  | .link _ _ => 0x03
  | .inPkt _ _ _ _ _ => 0x10
  | .inTdm _ _ _ => 0x11
  | .inDigest _ _ => 0x12
  | .changeFwd _ _ => 0x20
  | .change _ => 0x21
  | .seal _ _ => 0x22
  | .sealAck _ => 0x23
  | .shadow _ _ => 0x30
  | .hash _ _ _ _ => 0x31
  | .sweep _ _ _ => 0x40
  | .bulk _ _ => 0x41
  | .bulkFwd _ _ => 0x42
  | .state _ _ _ => 0x50

/-- The bytes of link words (R10, R393). -/
def linkBytes (l : List Word) : List Byte := l.flatMap (fun w => leBytes 8 w.toNat)

/-- The words of a message on the link: the header, its FRAME, the payload, and the CRC over them (R393). -/
def ApdinMsg.words (m : ApdinMsg) : List Word :=
  let body := Config.apdinPayload m.msg
  let head : Word := BitVec.ofNat 64 (msgType m.msg + b2n m.retx * 2 ^ 8 + body.length % 2 ^ 16 * 2 ^ 16 + m.lseq.toNat * 2 ^ 32)
  let l := head :: m.frame :: body
  l ++ [BitVec.ofNat 64 (crc32c (linkBytes l))]

/-- The CRC of a message received is right (R393). -/
def linkOk (m : LinkWords) : Bool := crc32c (linkBytes m.words) == m.crc.toNat

/-- A message with this LSEQ has been received (R394). -/
def received (l : W32) (t : TwinSt) : Bool := decide ((l - t.rxLseq).toInt ≤ 0) || t.rxAhead.contains l

/-- LSEQ `l` is received: the cumulative number goes on over every message that has come (R394). -/
def takeLseq (l : W32) (t : TwinSt) : TwinSt :=
  let come := t.rxAhead ++ [l]
  let r := come.foldl (fun r _ => if come.contains (r + 1) then r + 1 else r) t.rxLseq
  { t with rxLseq := r, rxAhead := come.filter (fun x => decide (0 < (x - r).toInt)) }

/-- A message other than LINK arrives: acted on unless it is a copy already received, and answered with the cumulative LSEQ,
which stays before a message that is missing (R394). -/
def rxMsg (lseq : W32) (f : RD → RD) (x : RD) : RD :=
  if !x.2.twin.linkUp then x
  else
    let z := if received lseq x.2.twin then x else f (onD (onTwin (takeLseq lseq)) x)
    onD (fun d => sendMsg (.link d.twin.rxLseq d.twin.lanes) d) z

/-- The HELLO of this module (R395). -/
def ownHello (st : TwinState) (d : Dev) : Hello :=
  { slotB := slotB d, state := st, serial := BitVec.ofNat 64 (rd64 d modSerialLo modSerialHi),
    imageId := BitVec.ofNat 32 (rd d storImageId), rate48 := is48 d, wired := flag d twinTwinCfgWired }

/-- Rate and image agree (R405). -/
def helloFits (d : Dev) (h : Hello) : Bool := h.rate48 == is48 d && h.imageId.toNat == rd d storImageId

/-- A joiner whose rate or image differs records it (R405). -/
def joinMismatch (h : Hello) (x : RD) : RD :=
  if helloFits x.2 h || x.2.twin.joinBad then x
  else
    let d1 := if h.rate48 != is48 x.2 then captureErr .twin 0x101 0 x.2 else captureErr .twin 0x102 0 x.2
    (x.1, onTwin (fun t => { t with joinBad := true }) (logFree 0x5005 (some 2) (fun v => [(2, v)]) d1))

/-- Register words that a join image carries: committed state, and neither identity, keys, counters nor headers, nor what is each
module's own (R406, R449). -/
def joinReg (a : Nat) : Bool :=
  decide (0x40 ≤ a % 0x1000) && decide (0x10000 ≤ a) && !(decide (0x400000 ≤ a) && decide (a < 0x420000)) &&
  !(decide (0x200000 ≤ a) && decide (a < 0x210000) && decide (a % 0x1000 < 0x50)) && !(decide (0x21004C ≤ a) && decide (a < 0x210064)) &&
  !(decide (0x500050 ≤ a) && decide (a < 0x5000D0)) && a != 0x510040 && a != 0x510044 &&
  !(decide (0x520000 ≤ a)) && !(decide (0x100000 ≤ a) && decide (a < 0x10C000)) &&
  (match rowAt a with | some r => r.clr == 0 && r.w1c == 0 | none => true)

/-- The memory that a join image covers, as spans of addresses with both ends: shared SRAM, the local memories, and the DRAM ranges
of this module (R406). -/
def joinCover (d : Dev) : List (Nat × Nat) :=
  (0x10000000, 0x117FFFFF) :: (List.range 12).map (fun p => (localBase p, localBase p + 0x7FFFF)) ++
  ((List.range 8).filter (fun r => flag d (twinJoinRangeEn r))).map (fun r =>
    (rd d (twinJoinRangeBase r) * 0x1000, rd d (twinJoinRangeLimit r) * 0x1000 + 0xFFF))

/-- The stream buffers, which it leaves out (R406). -/
def joinExcept (d : Dev) : List (Nat × Nat) :=
  [(rd d (strmInBase 0) * 256, rd d (strmInBase 0) * 256 + 20479), (rd d (strmOutBase 0) * 256, rd d (strmOutBase 0) * 256 + 12287)]

/-- An address within the spans of an image. -/
def covered (cover except : List (Nat × Nat)) (a : Nat) : Bool :=
  let within (s : Nat × Nat) : Bool := decide (s.1 ≤ a) && decide (a ≤ s.2)
  inRam a && cover.any within && !except.any within

/-- An address that this module's join image covers (R406). -/
def joinAddr (d : Dev) (a : Nat) : Bool := covered (joinCover d) (joinExcept d) a

/-- The 64-bit words in which two memories differ, of those addresses that count. -/
def changedWords (counts : Nat → Bool) (t u : Table Byte) : List Nat :=
  ((t ++ u).filterMap (fun e => if counts e.1 && tget memReset t e.1 != tget memReset u e.1 then some (e.1 / 8 * 8) else none)).eraseDups

/-- The registers of a join image that differ from what they last were at the joiner. -/
def changedRegs (d : Dev) (u : Table W32) : List Nat :=
  ((d.regs ++ u).filterMap (fun e => if joinReg e.1 && rdw d e.1 != tget regReset u e.1 then some e.1 else none)).eraseDups

/-- A block of words of a bulk copy. -/
def bulkAt (a : Nat) (l : List Word) : Msg := .bulk (BitVec.ofNat 40 a) (.words l)

/-- The parts of a join image that have no address: the sequence records (R65), the sequencer, line supervision, the tag block
and WEAR (R343), and the frame schedule (R83). The manual gives such a part no block layout in BULK (DESIGN CHOICE, log entry
73). -/
def imageItems (d : Dev) : List BulkBlock :=
  ((List.range 16).map (fun h => .seqRecord (Fin.ofNat 16 h) (tget (fun _ => 0) d.gw.last h) (tget (fun _ => none) d.gw.cached h))) ++
  [.sequencer d.seq, .supervision d.sup, .tags d.tag, .wear d.wear, .schedule d.cht.armed d.cht.prevMask]

/-- The registers and memory words that a joiner needs beyond what it holds, as messages. -/
def imageWords (fwd : Bool) (mem : Table Byte) (regs : Table W32) (d : Dev) : List Msg :=
  let one (a : Nat) (w : Word) : Msg := if fwd then .bulkFwd a w else bulkAt a [w]
  (changedRegs d regs).map (fun a => one (0x40000000 + a) ((rdw d a).setWidth 64)) ++
  (changedWords (joinAddr d) d.mem mem).map (fun a => one a (BitVec.ofNat 64 (rdN d a 8)))

/-- What the joiner now holds of the image. -/
def imageSent (d : Dev) : Dev := onTwin (fun t => { t with sent := some d.mem, sentRegs := d.regs, sentItems := imageItems d }) d

/-- The join image sent to a joiner: all that it covers, where what reads as after reset goes as one block (R406; DESIGN CHOICE,
log entry 73). -/
def sendImage (d : Dev) : Dev :=
  let l := Msg.bulk 0 (.cleared (joinCover d) (joinExcept d)) :: imageWords false [] [] d ++ (imageItems d).map (Msg.bulk 0)
  imageSent (forEach (Msg.bulk 0 (.size l.length) :: l) sendMsg d)

/-- Writes made since the last tick to what was copied are forwarded (R406). -/
def forwardWrites (d : Dev) : Dev :=
  match d.twin.sent with
  | none => d
  | some m =>
    imageSent (forEach (imageWords true m d.twin.sentRegs d ++
      ((imageItems d).filter (fun b => !d.twin.sentItems.contains b)).map (Msg.bulk 0)) sendMsg d)

/-- HELLO_RX (R386, R395, R405, R406). -/
def doHelloRx (h : Hello) (x : RD) : RD :=
  if !x.2.twin.linkUp then x
  else
    let d := onTwin (fun t => { t with peerHello := some h }) x.2
    let d1 := wr (wr64 d twinPeerSerialLo twinPeerSerialHi h.serial.toNat) twinPeerImageId h.imageId.toNat
    let y : RD := (x.1, d1)
    match x.1.state with
    | .startUp =>
      if h.slotB == slotB d1 then enter .quiet 2 (onD (captureErr .twin 0x100 0) y)
      else if ownsTdm h.state then joinMismatch h (enter .joining 0 y)
      else y
    | .joining => joinMismatch h y
    | .alone => if h.state = .joining ∧ helloFits d1 h ∧ d1.twin.sent.isNone then onD sendImage y else y
    | .owner => if h.state = .joining ∧ helloFits d1 h ∧ d1.twin.sent.isNone then onD sendImage y else y
    | _ => y

/-- BEAT_RX: the link path of its sample is present; at sample 0 the peer's tick time, which a PARTNER without another
source of time follows (R300, R390, R395). -/
def doBeatRx (st : TwinState) (sample : Nat) (tick : Word) (d : Dev) : Dev :=
  if !d.twin.linkUp then d
  else
    let d1 := if st = .partner && sample = 0 && ptpMayFollow d then ptpEnter 4 d else d
    onTwin (fun t => { t with beats := if t.beats.contains sample then t.beats else t.beats ++ [sample],
                              peerTick := if sample = 0 then tick else t.peerTick }) d1

/-- Lanes lost: with three the link goes on, with an amber record and the lane status sent; with fewer it is down (R392). -/
def lanesLeft (lanes : Nat) (x : RD) : RD :=
  let d1 := onTwin (fun t => { t with lanes := lanes }) x.2
  if laneCount d1 < 3 then linkDown (x.1, d1)
  else if laneCount d1 = laneCount x.2 then (x.1, d1)
  else (x.1, sendMsg (.link d1.twin.rxLseq d1.twin.lanes) (logEv 0x5003 0 1 [(2, laneCount d1)] 0 (raise .twin 2 d1)))

/-- LINK_RX: messages up to `acked` are acknowledged, and the lane status is exchanged; a message with a wrong CRC, of
whatever type, is discarded and counted (R392 to R394). -/
def doLinkRx (msg : LinkWords) (acked : W32) (lanes : Nat) (x : RD) : RD :=
  if !x.2.twin.linkUp then x
  else if !linkOk msg then onD (fun d => inc d twinCrcErrCount) x
  else
    lanesLeft (x.2.twin.lanes &&& lanes) (onD (onTwin (fun t => { t with
      unacked := t.unacked.filter (fun u => decide (0 < (u.sent.lseq - acked).toInt)) })) x)

/-- IN_PKT_RX: a forwarded copy filed for the input frames still open, from the first that its sender filed it for
(R285, R396). -/
def doInPktRx (s net : Nat) (frame : Word) (ts : W32) (payload : List Byte) (d : Dev) : Dev :=
  let n := nSamp d
  let idx := rtpIndex d (rd d (rxRtpOffset s)) ts
  if idx < 0 ∨ payload.length ≠ rxPayload d s then inc d twinFwdLateCount
  else
    let base := idx.toNat
    let dep := rd d (rxDepth s)
    let first := max (base / n + dep) frame.toNat
    let last := (base + n * rxFrames d s - 1) / n + dep
    let open_ := d.clk.frame.toNat
    let d1 := if first < open_ then inc d twinFwdLateCount else d
    if last < open_ then d1 else filePacket (2 + net) s base payload (max first open_) (fun _ => false) d1

/-- IN_TDM_RX: the owner's sense capture of a port (R298, R396). -/
def doInTdmRx (k : Nat) (frame : Word) (words : List W32) (d : Dev) : Dev :=
  { d with strm := { d.strm with fwdTdm := tset (fun _ => []) d.strm.fwdTdm k words,
                                 fwdFrame := tset (fun _ => none) d.strm.fwdFrame k (some frame) } }

/-! ### Agreement (R396 to R403) -/

/-- The twins disagree: the partner becomes QUIET and the owner ALONE; in other states nothing changes (R403, R405). -/
def diverge (x : RD) : RD :=
  match x.1.state with
  | .partner => enter .quiet 1 x
  | .owner => takeover x
  | _ => x

/-- A divergence found now is recorded: in OWNER and PARTNER, and, once, in the frame of a takeover from a silent peer, where it
changes no state further (R403, R411). -/
def judgesDivergence (x : RD) : Bool :=
  let t := x.2.twin
  let now := some x.2.clk.frame
  x.1.state == .owner || x.1.state == .partner || (x.1.state == .alone && t.silentAt == now && t.divergedAt != now)

/-- A divergence is counted, captured and recorded: of the input, or of the output at a stream or port (R403, R412). -/
def divergence (code : Nat) (cnt : Fld) (frame : Word) (place : Option (Bool × Nat)) (x : RD) : RD :=
  let d1 := captureErr .twin code ((place.map Prod.snd).getD 0) (inc x.2 cnt)
  let d2 := onTwin (fun t => { t with divergedAt := some d1.clk.frame }) d1
  diverge (x.1, logFree 0x5002 (some 2)
    (fun v => [(8, frame.toNat), (2, match place with | some q => (Config.divergencePlace q.1 q.2).toNat | none => v),
      (2, (Config.divergenceKind place.isSome).toNat)]) (raise .twin 3 d2))

/-- The input digests of a frame are compared once both are known (R397, R403). -/
def compareDigests (x : RD) : RD :=
  match x.2.twin.ownDigest, x.2.twin.peerDigest with
  | some a, some b =>
    if a.1 = b.1 ∧ a.2 ≠ b.2 ∧ judgesDivergence x then divergence 0x103 twinDigestMismatchCount a.1 none x
    else x
  | _, _ => x

/-- The digests of frame `n` compared equal (R401). -/
def digestsAgree (d : Dev) (n : Word) : Bool :=
  match d.twin.ownDigest, d.twin.peerDigest with
  | some a, some b => a.1 == n && a == b
  | _, _ => false

/-- IN_DIGEST_RX (R397). -/
def doInDigestRx (frame digest : Word) (x : RD) : RD :=
  compareDigests (onD (onTwin (fun t => { t with peerDigest := some (frame, digest) })) x)

/-- CHANGE_FWD_RX: the owner numbers a forwarded change (R398). -/
def doChangeFwdRx (op : ChangeOp) (hank : Option HankTag) (x : RD) : RD :=
  if ownsTdm x.1.state then onD (numberChange op hank) x else x

/-- Every change up to `num` is held or applied (R398). -/
def sealComplete (d : Dev) (num : Nat) : Bool :=
  (List.range (num - d.commit.applied)).all (fun i => d.commit.held.any (fun h => h.num == d.commit.applied + 1 + i))

/-- The partner holds its seal and every change up to it (R398). -/
def sealWhole (d : Dev) : Bool := match d.twin.sealHeld with | some (_, n) => sealComplete d n | none => false

/-- The partner acknowledges its seal once it holds every change (R398). -/
def ackSeal (d : Dev) : Dev :=
  match d.twin.sealHeld with
  | some (f, n) => if sealComplete d n then sendMsg (.sealAck f) d else d
  | none => d

/-- CHANGE_RX: a numbered change is held (R398); one this module forwarded has come back. The last change that a seal waited for
has the partner acknowledge it. -/
def doChangeRx (c : Held) (x : RD) : RD :=
  if ownsTdm x.1.state then x
  else onD (fun d =>
    let m := d.commit
    if m.held.any (fun h => h.num == c.num) then d
    else
      let d1 := { d with commit := { m with held := m.held ++ [c], count := max m.count c.num,
                                            forwarded := m.forwarded.erase (c.op, c.hank) } }
      if x.1.state = .partner ∧ !sealWhole d then ackSeal d1 else d1) x

/-- SEAL_RX (R398). -/
def doSealRx (frame : Word) (num : Nat) (x : RD) : RD :=
  let y := onD (onTwin (fun t => { t with sealHeld := some (frame, num) })) x
  if x.1.state = .partner then onD ackSeal y else y

/-- SEAL_ACK_RX (R398, R399). -/
def doSealAckRx (frame : Word) (d : Dev) : Dev := onTwin (fun t => { t with sealAcked := some frame }) d

/-- SEAL: the owner seals the last commit number of the frame (R398). -/
def doSeal (st : TwinState) (d0 : Dev) : Dev :=
  let d := atCycle 120000 d0
  if ownsTdm st then
    sendMsg (.seal d.clk.frame d.commit.count) (onTwin (fun t => { t with sealed := some (d.clk.frame, d.commit.count) }) d)
  else d

/-- The twin's words of a refused channel written into the TDM buffers (R404). -/
def shadowSlot (d : Dev) (words : List W32) (n : Nat) (r : RefusedOut) (b : Table W32) : Table W32 :=
  if entTdmValid r.entry then
    (List.range (nSamp d)).foldl (fun b j => tset (fun _ => 0) b (tdmKey n (entTdmPort r.entry) (entTdmSlot r.entry) j)
      (nth words (r.index * nSamp d + j) 0)) b
  else b

/-- A skein whose channels this module refuses for the frame being transmitted (R27, R375). -/
def refusedSkein (d : Dev) (s : Nat) : Bool :=
  match ownerPair d s with
  | some p => d.cht.overran.contains p || plyRefuses d p
  | none => true

/-- The twin's words for refused output `r`. -/
def shadowOf (d : Dev) (words : List W32) (r : RefusedOut) : List W32 :=
  (List.range (nSamp d)).map (fun j => nth words (r.index * nSamp d + j) 0)

/-- The twin computed refused output `r`: its words are not those of the concealment, which a twin that refused it too would
send (R27; DESIGN CHOICE, log entry 136). -/
def twinComputed (d : Dev) (words : List W32) (r : RefusedOut) : Bool := shadowOf d words r != r.samples

/-- The twin's words of frame `n` for the refused channels: they fill the TDM buffers. Those that the twin computed are the
last frame of their outputs, which ends the run of a concealment (R27), and they carried the probe (R313, R404; DESIGN
CHOICE, log entry 136). -/
def shadowInto (n : Word) (words : List W32) (d : Dev) : Dev :=
  let computed := d.twin.refused.filter (twinComputed d words)
  let buf := d.twin.refused.foldl (fun b r => shadowSlot d words n.toNat r b) d.strm.tdmBuf
  let d1 := { d with strm := { d.strm with tdmBuf := buf } }
  probeHeard true n.toNat (computed.map RefusedOut.index)
    (forEach computed (fun r d => (channelTake r.index false (some (shadowOf d words r)) d).2) d1)

/-- SHADOW_RX: the twin's output words of a frame; they fill the TDM buffers for refused channels until frame cycle
117,760, but in ALONE, where R27 conceals them (R27, R404). -/
def doShadowRx (st : TwinState) (frame : Word) (words : List W32) (d : Dev) : Dev :=
  let t := (List.range (192 * nSamp d)).foldl (fun t i => tset (fun _ => 0) t i (nth words i 0)) []
  let d1 := onTwin (fun w => { w with shadow := t, shadowFrame := some frame }) d
  if st ≠ .alone ∧ frame = workFrame d ∧ 109568 ≤ d.clk.cycle ∧ d.clk.cycle ≤ 117760 then shadowInto frame words d1 else d1

/-- Key of an output hash (R402). -/
def hashKey (port : Bool) (index : Nat) : Nat := 2 * index + b2n port

/-- HASH_RX: a packet's or a port's output hash is compared with this module's (R402, R403). -/
def doHashRx (frame : Word) (port : Bool) (index : Nat) (hash : Word) (x : RD) : RD :=
  let k := hashKey port index
  let d := doIf (frame == workFrame x.2)
    (onTwin (fun t => { t with peerHash := tset (fun _ => none) t.peerHash k (some hash) })) x.2
  match tget (fun _ => none) d.twin.ownHash k with
  | some h =>
    if h = hash ∨ frame ≠ workFrame d then (x.1, d)
    else if judgesDivergence (x.1, d) then
      divergence 0x104 twinHashMismatchCount frame (some (port, index)) (x.1, d)
    else if x.1.state = .alone ∧ d.twin.peer = .quiet then (x.1, inc d twinQuietMismatchCount)
    else (x.1, d)
  | none => (x.1, d)

/-- SWEEP_RX: the twin's swept words of a pair; a pair that still copies does not note them (R372, R373, R376). -/
def doSweepRx (frame : Word) (p : Nat) (words : List Word) (d : Dev) : Dev :=
  let put (t : Table Word) : Table Word :=
    (List.range 209).foldl (fun s i => tset (fun _ => 0) s (256 * p + i) (nth words i 0)) t
  let d1 := onTwin (fun t => { t with sweep := put t.sweep, sweepFrame := some frame }) d
  if pstate d p ≠ 3 ∨ (ply d p).copied then onPly p (fun x => { x with sweepFrame := some frame }) d1 else d1

/-- A block of words of a bulk copy written at its target: memory, or registers (R376, R406). -/
def bulkWrite (a : Nat) (words : List Word) (d : Dev) : Dev :=
  if inRam a then wrWindow a (words.flatMap (fun w => leBytes 8 w.toNat)) d
  else if decide (0x40000000 ≤ a) && decide (a < 0x41000000) then
    (List.range words.length).foldl (fun d i => wrw d (a - 0x40000000 + 4 * i) ((nth words i 0).setWidth 32)) d
  else d

/-- Words of a bulk copy: of a resynchronisation, or of skein state that moves (R88, R376). -/
def doBulkWords (st : TwinState) (a : Nat) (words : List Word) (d : Dev) : Dev :=
  let p := windowPair a
  if inLocal a && (pstate d p == 3 || twinMoves (movesStopped (paired st d) d) p) then bulkWrite a words d else d

/-- All that a join image covers reads as after reset, until its other blocks come (R406). -/
def imageCleared (cover except : List (Nat × Nat)) (d : Dev) : Dev :=
  let out (a : Nat) : Bool := !covered cover except a
  forN 12 (fun p d => onCore p (Core.heal 0 0x80000) d)
    { d with mem := d.mem.filter (fun e => out e.1), eccBad := d.eccBad.filter out, regs := d.regs.filter (fun e => !joinReg e.1) }

/-- A block of a join image takes its place in a joiner (R65, R343, R406). -/
def imageItem (a : Nat) (b : BulkBlock) (d : Dev) : Dev :=
  match b with
  | .words l => bulkWrite a l d
  | .size n => onTwin (fun t => { t with joinTotal := n, joinGot := 0 }) d
  | .cleared c e => imageCleared c e d
  | .seqRecord h last cached =>
    { d with gw := { d.gw with last := tset (fun _ => 0) d.gw.last h.val last,
                               cached := tset (fun _ => none) d.gw.cached h.val cached } }
  | .sequencer s => { d with seq := s }
  | .supervision s => { d with sup := s }
  | .tags s => { d with tag := s }
  | .wear s => { d with wear := s }
  | .schedule armed prev => { d with cht := { d.cht with armed := armed, prevMask := prev } }
  | .askMemory _ _ | .completed _ _ | .askSkein _ _ | .movedSkein _ => d

/-- JOIN_PROGRESS: the percentage of the join image's blocks that have come (R412). -/
def joinPart (d : Dev) : Dev :=
  let t := d.twin
  let n := t.joinGot + 1
  wr (onTwin (fun t => { t with joinGot := n }) d) twinJoinProgress (if t.joinTotal = 0 then 0 else min 100 (100 * n / t.joinTotal))

/-- The local memory of pair `p` sent to the twin's pair (R376). -/
def sendMemory (p : Nat) (d : Dev) : Dev :=
  forN 64 (fun i d => sendMsg (bulkAt (localBase p + 0x2000 * i)
    ((List.range 1024).map (fun j => BitVec.ofNat 64 (rdN d (localBase p + 0x2000 * i + 8 * j) 8)))) d) d

/-- The twin's pair asks for the local memory of CPn, which is sent and its writes then forwarded; where CPn is itself frozen,
resetting or quarantined, the owner commits a cold restart of both (R376, R377; DESIGN CHOICE, log entry 74). -/
def memoryAsked (st : TwinState) (p : Pair) (wanted : Bool) (d : Dev) : Dev :=
  if !paired st d then d
  else
    let rest := d.twin.copying.filter (fun e => e.1 != p.val)
    if !wanted then onTwin (fun t => { t with copying := rest }) d
    else if muted d p.val then
      (if heldAny d (fun o => o == .rejoinCold p) then d else submit st .bootRom (.rejoinCold p) none d)
    else sendMemory p.val (onTwin (fun t => { t with copying := (p.val, d.mem) :: rest }) d)

/-- Writes to the local memories that the peer copies are forwarded (R376). -/
def forwardMemory (d : Dev) : Dev :=
  let d1 := forEach d.twin.copying (fun e d =>
    forEach (changedWords (fun a => inLocal a && windowPair a == e.1) d.mem e.2)
      (fun a d => sendMsg (.bulkFwd a (BitVec.ofNat 64 (rdN d a 8))) d) d) d
  onTwin (fun t => { t with copying := t.copying.map (fun e => (e.1, d.mem)) }) d1

/-- The pairs that the peer copies and that have signalled completion in this period are reported to it (R376). -/
def sendCompleted (d : Dev) : Dev :=
  forEach (d.twin.copying.filter (fun e => bit (rd d chtDoneStatus) e.1)) (fun e d =>
    sendMsg (.bulk 0 (.completed (Fin.ofNat 12 e.1) d.clk.frame)) d) d

/-- The twin's new pair asks for the state of a skein: the words that hold it, at the same offsets in the new pair, and their end
(R88, R90, R395; log entry 74). -/
def skeinAsked (st : TwinState) (s : Nat) (p : Nat) (d : Dev) : Dev :=
  match ownerPair d s with
  | some q =>
    if !paired st d then d
    else sendMsg (.bulk 0 (.movedSkein (Fin.ofNat 64 s))) (forEach (Config.skeinState s) (fun r d =>
      forN ((r.2 + 7) / 8) (fun i d =>
        sendMsg (bulkAt (localBase p + r.1 + 8 * i) [BitVec.ofNat 64 (rdN d (localBase q + r.1 + 8 * i) 8)]) d) d) d)
  | none => d

/-- BULK_RX: a block of a join image, of a resynchronisation, or of skein state that moves (R88, R376, R406). -/
def doBulkRx (st : TwinState) (a : Nat) (b : BulkBlock) (d : Dev) : Dev :=
  if st = .joining then (match b with | .size _ => imageItem a b d | _ => joinPart (imageItem a b d))
  else match b with
  | .words l => doBulkWords st a l d
  | .askMemory p w => memoryAsked st p w d
  | .completed p f => onPly p.val (fun x => { x with twinDone := some f }) d
  | .askSkein s p => skeinAsked st s.val p.val d
  | .movedSkein s => twinMoved s.val (movesStopped (paired st d) d)
  | _ => d

/-- STATE_RX: the peer's state; an owner whose peer is QUIET is ALONE (R395, R405). -/
def doStateRx (st : TwinState) (hold silence : Bool) (x : RD) : RD :=
  let y := onD (onTwin (fun t => { t with peer := st, peerHold := hold })) x
  if x.1.state = .owner ∧ st = .quiet then takeover y else y

/-- APDIN_RETX_TIMEOUT: the unacknowledged message that was sent least recently is sent again, with RETRANSMISSION set, or after
three sends the link is down (R394). -/
def doApdinRetxTimeout (x : RD) : RD :=
  match x.2.twin.unacked with
  | [] => x
  | u :: r =>
    if !x.2.twin.linkUp then x
    else if 3 ≤ u.sends then linkDown x
    else
      let again : ApdinMsg := { u.sent with retx := true }
      let d1 := onTwin (fun t => { t with unacked := r ++ [⟨again, u.sends + 1⟩] }) x.2
      (x.1, inc { d1 with out := { d1.out with apdin := again :: d1.out.apdin } } twinRetxCount)

/-- APDIN_LANE_LOSS: the link goes on with three lanes, or is down (R392). -/
def doApdinLaneLoss (lane : Nat) (x : RD) : RD :=
  if !x.2.twin.linkUp || !bit x.2.twin.lanes lane then x
  else lanesLeft (putBit x.2.twin.lanes lane false) x

/-- APDIN_LINK_UP: the lanes lock and align (R392, R395). -/
def doApdinLinkUp (lanes : Nat) (x : RD) : RD :=
  if x.2.twin.linkUp || decide (lanes < 3) || !flag x.2 (hdrActive .twin) || x.2.bist.bootFailed then x
  else
    let d1 := watchSplit none (onTwin (fun t => { t with
      linkUp := true, lanes := 2 ^ lanes - 1, txLseq := 0, rxLseq := 0, rxAhead := [], unacked := [], witness := false
      peerHello := none, ownMiss := 0 }) x.2)
    (x.1, sendMsg (.hello (ownHello x.1.state d1)) (raise .twin 2 d1))

/-! ### Commands and the watchdog -/

/-- WATCHDOG_EXPIRE: no refresh for WDOG_FRAMES frames: the module abdicates (R391). -/
def abdicate (x : RD) : RD := enter .quiet 2 x

/-- The watchdog has run out. -/
def doWatchdogExpire (x : RD) : RD :=
  if rd x.2 twinWdogFrames = 0 ∨ x.2.twin.wdog < rd x.2 twinWdogFrames then x
  else onD (fun d => onTwin (fun t => { t with wdog := 0, abdicatedAt := some (d.clk.frame, d.clk.sample) }) d) (abdicate x)

/-- JOIN_TIMEOUT: no join frame within 30 s, 240,000 frames (R405). -/
def doJoinTimeout (x : RD) : RD :=
  if x.1.state = .joining ∧ 240000 ≤ x.2.twin.joinAge then joinFails x else x

/-- A committed QUIET command for the module of a slot (R405, R411). -/
def quietApply (slot hold : Bool) (x : RD) : RD :=
  let live := x.1.state == .owner || x.1.state == .partner
  if slot == slotB x.2 then
    if x.1.state = .alone then onD (captureErr .twin 0x107 0) x
    else if live then enterHold .quiet hold 0 x
    else if x.1.state = .quiet then (roleIn .quiet (hold || x.1.hold) x.1, x.2)
    else x
  else if live then
    let y := enter .alone 0 x
    onD (fun d => d.commit.forwarded.foldl (fun d f => numberChange f.1 f.2 d)
      { d with commit := { d.commit with forwarded := [] } }) y
  else x

/-- A committed RELEASE_HOLD. -/
def releaseApply (slot : Bool) (x : RD) : RD :=
  if slot == slotB x.2 then ({ x.1 with hold := false }, x.2) else x

/-- A committed JOIN: a QUIET module without hold enters JOINING, and with the link down QUIET again with JOIN_TIMEOUT (R405). -/
def joinApply (slot : Bool) (x : RD) : RD :=
  if slot == slotB x.2 && x.1.state == .quiet && !x.1.hold then
    let y := enter .joining 0 (onD (onTwin (fun t => { t with joinGot := 0, joinTotal := 0, joinBad := false })) x)
    if x.2.twin.linkUp then y else joinFails y
  else x

/-- The peer's ACTIVE masks are this module's own: at a pairing and at the join frame (R405, R406). -/
def masksAgree (d : Dev) : Dev :=
  let masks : Table Word := (List.range 12).foldl (fun m n => tset (fun _ => 0) m n (BitVec.ofNat 64 (actMask d n))) []
  onTwin (fun t => { t with peerSwitch := d.cht.armed, peerMask := masks }) d

/-- The swept registers of every pair, part of the join image (R406). -/
def joinSweep (d : Dev) : Dev :=
  forN 12 (fun p d => if (ply d p).sweepFrame == some (workFrame d) then takeSweep p d else d) d

/-- The committed join frame: the joiner becomes PARTNER with its peer's swept registers, and its peer OWNER (R405,
R406). -/
def joinFrameApply (x : RD) : RD :=
  let rec_ (x : RD) : RD := onD (logEv 0x5005 0 0 [(8, x.2.clk.frame.toNat - 1)] 0) x
  match x.1.state with
  | .joining => if x.2.twin.joinBad then x else enter .partner 0 (rec_ (onD (fun d => wr (masksAgree (joinSweep d)) twinJoinProgress 100) x))
  | .alone => enter .owner 0 (rec_ (onD (fun d => masksAgree (onTwin (fun t => { t with sent := none }) d)) x))
  | _ => x

/-- The QUIET command of the owner's slot goes first when both modules have one at a commit point (R411). -/
def orderQuiet (ownerB : Bool) (l : List Held) : List Held :=
  let first (h : Held) : Bool := match h.op with | .twinQuiet s _ => s == ownerB | _ => false
  let second (h : Held) : Bool := match h.op with | .twinQuiet s _ => s != ownerB | _ => false
  if l.any first && l.any second then l.filter (fun h => !second h) ++ l.filter second else l

/-- The tick of the twin block before control changes apply: pairing at start-up (R405), counters of frames. -/
def twinTick (x : RD) : RD :=
  let d := x.2
  let split := match d.twin.split with
    | some n => some (n + 1)
    | none => if x.1.state = .startUp ∧ !d.twin.linkUp ∧ !d.bist.bootFailed then some 0 else none
  let d1 := watchSplit split (onTwin (fun t => { t with
    wdog := if rd d twinWdogFrames = 0 then 0 else t.wdog + 1
    joinAge := if x.1.state = .joining then t.joinAge + 1 else 0 }) d)
  let y : RD := (x.1, d1)
  match x.1.state, d1.twin.peerHello with
  | .startUp, some h =>
    if d1.twin.linkUp && helloFits d1 h && (h.state == .startUp) then
      enter (if slotB d1 then .partner else .owner) 0 (onD masksAgree y)
    else y
  | _, _ => y

/-- The messages of every tick: STATE, HELLO while not paired (R395), and the writes forwarded to a joiner (R406). -/
def twinSends (st : TwinState) (hold : Bool) (d : Dev) : Dev :=
  let d1 := sendMsg (.state st hold d.twin.peerSilent) d
  let d2 := if st = .owner ∨ st = .partner then d1 else sendMsg (.hello (ownHello st d1)) d1
  let d3 := forwardMemory (forwardWrites d2)
  let waits := d3.twin.unacked.any (fun u => match u.sent.msg with | .bulk _ _ | .bulkFwd _ _ => true | _ => false)
  if d3.twin.sent.isSome && !waits && !heldAny d3 (fun o => o == .joinFrame) && st == .alone then
    numberChange .joinFrame none d3
  else d3

end Sys2Proof.Machine
end

