-- ==== Sys2Proof/Machine/Power.lean ====
section
/-! DEFINITION. Boot, self-test, shut-down, standby and loss of power (R413 to R428, R431, R439). -/

namespace Sys2Proof.Machine

/-- PMODE of the module (R432). -/
def pmode (d : Dev) : Nat := rd d bistPstatusPmode

/-- The module runs: PMODE 0. -/
def isRunning (d : Dev) : Bool := pmode d == 0

/-- Frames are computed and sent: PMODE 0, and until the module abdicates in a hold-up that began there (R391); one that began in a
shut-down or in standby computes none (R431). -/
def inFrame (d : Dev) : Bool := pmode d == 0 || (pmode d == 6 && d.bist.heldFrom == 0)

/-- The BIST record changed. -/
def onBist (f : BistSt → BistSt) (d : Dev) : Dev := { d with bist := f d.bist }

/-- Every BIST index, as a mask. -/
def allIndices : Nat := 2 ^ 42 - 1

/-- The indices due (R418). -/
def dueMask (d : Dev) : Nat := rd64 d bistDueLo bistDueHi

/-- The indices due set. -/
def putDue (m : Nat) (d : Dev) : Dev := wr64 d bistDueLo bistDueHi m

/-! ### Images (R413, R414) -/

/-- A 32-bit word of an image's header. -/
def imgWord (d : Dev) (b : Bool) (o : Nat) : Nat := rdN d (norBase b + o) 4

/-- The body of an image. -/
def imgBody (d : Dev) (b : Bool) : List Byte := rdBytes d (norBase b + 0x1000) (imgWord d b 0x10)

/-- An image is valid (R414). -/
def imageValid (d : Dev) (b : Bool) : Bool :=
  let a := norBase b
  imgWord d b 0 == 0x53544449 && imgWord d b 4 == 1 && decide (imgWord d b 0x10 ≤ 40 * 2 ^ 20 - 4 * 2 ^ 10) &&
  (List.range 4).any (fun i => Config.fusedKey i == sha256 (rdBytes d (a + 0x80) 64)) &&
  ecdsaOk (ofBe (rdBytes d (a + 0x80) 32), ofBe (rdBytes d (a + 0xA0) 32)) (ofBe (rdBytes d (a + 0x40) 32))
    (ofBe (rdBytes d (a + 0x60) 32)) (rdBytes d a 0x40) &&
  rdBytes d (a + 0x20) 32 == sha256 (imgBody d b)

/-- The image the boot ROM selects: true is B (R414). -/
def imageChoice (d : Dev) (va vb : Bool) : Option Bool :=
  let t := flag d storBootTryB
  if flag d storBootTryEn && (if t then vb else va) then some t
  else if va && vb then some (decide (imgWord d false 0xC < imgWord d true 0xC))
  else if va then some false
  else if vb then some true
  else none

/-! ### The shut-down record (R419, R420) -/

/-- Slot `s` of the record area. -/
def recSlot (s : Nat) : Nat := recordArea + 64 * s

/-- The CRC of a slot is correct. -/
def recOk (d : Dev) (s : Nat) : Bool := rdN d (recSlot s + 0x3C) 4 == crc32c (rdBytes d (recSlot s) 0x2C)

/-- The slot with the highest SEQ and a correct CRC. -/
def recLast (d : Dev) : Option Nat :=
  (List.range 4096).foldl (fun b s =>
    if recOk d s then
      match b with
      | none => some s
      | some t => if rdN d (recSlot t + 8) 8 < rdN d (recSlot s + 8) 8 then some s else b
    else b) none

/-- The record is valid for the image selected (R420). -/
def recValid (d : Dev) (s : Nat) : Bool :=
  rdN d (recSlot s + 0x2C) 4 == 0xFFFFFFFF && rdN d (recSlot s + 0x18) 4 == rd d storImageId &&
  rdN d (recSlot s + 0x1C) 4 == rd d modSiliconRev

/-- The next record, in slot order; the area is erased when its last slot has been used (R419). -/
def writeRecord (d : Dev) : Dev :=
  let next := match recLast d with
    | none => (0, 0, false)
    | some s => (if s = 4095 then 0 else s + 1, rdN d (recSlot s + 8) 8 + 1, decide (s = 4095))
  let ms := (d.clk.frame.toNat - d.bist.shutFrame.toNat) / 8
  let head := leBytes 4 0x53445354 ++ leBytes 4 1 ++ leBytes 8 next.2.1 ++ leBytes 8 d.bist.shutFrame.toNat ++
    leBytes 4 (rd d storImageId) ++ leBytes 4 (rd d modSiliconRev) ++ leBytes 8 d.bist.pass ++ leBytes 4 ms
  let d1 := doIf next.2.2 (norErase recordArea 0x40000) d
  norProgram (recSlot next.1) (head ++ List.replicate 16 0xFF ++ leBytes 4 (crc32c head)) d1

/-! ### Boot (R416, R417, R420) -/

/-- CP0 starts at the image's entry bundle (R413, R416). -/
def startCp0 (d : Dev) : Dev :=
  let d1 := wr (wr d (hdrEn (plyBlk 0)) 1) (hdrActive (plyBlk 0)) 1
  if (ply d 0).injecting || pstate d 0 != 0 then d1 else wr d1 (plyPstateState 0) 1

/-- Pairs of a mask of indices start quarantined (R379, R420). -/
def quarantinePairs (m : Nat) (d : Dev) : Dev := forN 12 (fun p d => doIf (bit m p) (quarantine p) d) d

/-- The golden row of the booted image is missing: captured, and one crimson record names the silicon revision (R415). -/
def noGoldenRow (d : Dev) : Dev :=
  logFree 0x5101 (some 2) (fun _ => [(2, rd d modSiliconRev)]) (captureErr .bist 0x0102 0 d)

/-- The boot of the image selected, once it is in its registers: DRAM, golden row, record, pairs (R415 to R420). -/
def bootImage (b : Bool) (ms : W32) (d0 : Dev) : Dev :=
  let body := imgBody d0 b
  let load := rdN d0 (norBase b + 0x18) 8
  let fits := inDram load && inDram (load + body.length - 1)
  let d1 := doIf fits (fun d => wrBytes d load body) d0
  let g := Config.golden body (rd d0 modSiliconRev)
  let d2 := onBist (fun x => { x with golden := g.map (fun p => p.1), quick := g.map (fun p => p.2) }) d1
  let last := recLast d2
  let ok := last.any (fun s => recValid d2 s) && g.isSome
  let pass := match last with | some s => rdN d2 (recSlot s + 0x20) 8 | none => 0
  let missing := if ok then allIndices - pass % 2 ^ 42 &&& allIndices else allIndices
  let d3 := match last with | some s => norProgram (recSlot s + 0x2C) (leBytes 4 0) d2 | none => d2
  let d4 := putDue missing (wr d3 bistPstatusRecValid (b2n ok))
  let d5 := forN 12 (fun p d => clearLocal p (resetPair p d)) d4
  let d6 := onCore 0 (Core.goto (imgWord d0 b 0x14 * 64)) d5
  let d7 := if ok then quarantinePairs missing d6 else d6
  let tried := if ok then missing / 2 ^ 12 * 2 ^ 12 else allIndices
  let d8 := onBist (fun x => { x with tried := tried, starting := some (8 * ms.toNat) }) d7
  let d9 := if g.isNone then noGoldenRow d8 else d8
  if tried = 0 then startCp0 d9 else d9

/-- A frame period of the start-up has passed (R416). -/
def startTick (d : Dev) : Dev := onBist (fun x => { x with starting := x.starting.map (· + 1) }) d

/-- The first frame is transmitted: START_MS, and the record with the path and the time (R416). The time is what POWER_GOOD gave
and eight frames a millisecond since (DESIGN CHOICE, log entry 175). -/
def startDone (st : TwinState) (d : Dev) : Dev :=
  match d.bist.starting with
  | some n =>
    if isLive st then
      logEv 0x5103 0 0 [(2, rd d bistPstatusRecValid), (4, n / 8)] 0
        (wr (onBist (fun x => { x with starting := none }) d) bistStartMs (n / 8))
    else d
  | none => d

/-- POWER_GOOD: the processing rate is read from the configuration (R33), and the boot ROM checks both images and boots
one, or none (R414, R416). -/
def doPowerGood (ms : W32) (d : Dev) : Dev :=
  if d.bist.booted then d
  else
    let d1 := wr (onBist (fun x => { x with powered := true, booted := true }) d) modRate48 (b2n d.bist.cfg48)
    let va := imageValid d1 false
    let vb := imageValid d1 true
    let choice := imageChoice d1 va vb
    let d2 := wr (wr (wr d1 storValidA (b2n va)) storValidB (b2n vb)) storBootTryEn 0
    let d3 := wr (wr d2 storGenA (imgWord d1 false 0xC)) storGenB (imgWord d1 true 0xC)
    match choice with
    | none => onBist (fun x => { x with bootFailed := true }) d3
    | some b => bootImage b ms (wr (wr d3 storBootedB (b2n b)) storImageId (imgWord d1 b 8))

/-- RESULT of a signature: 1 pass, 2 fail, 3 NO_GOLDEN (R415, R432). -/
def judge (row : Option (List Word)) (i : Nat) (sig : Word) : Nat :=
  match row with
  | none => 3
  | some l => if l[i]? = some sig then 1 else 2

/-- The report of an index (R417, R423, R432). -/
def putResult (i : Nat) (sig : Word) (r : Nat) (quick : Bool) (d : Dev) : Dev :=
  let d1 := wr64 d (bistSigLo i) (bistSigHi i) sig.toNat
  wr (wr (wr d1 (bistResult i) r) (bistQuick i) (b2n quick)) (bistLegacyFail i) (b2n (r != 1))

/-- QUICK_TEST_END: the signatures of the quick logic test; a failing block stays disabled, a failing pair starts
quarantined, and every index tested is due (R417, R420). -/
def doQuickTestEnd (sigs : List Word) (d : Dev) : Dev :=
  if d.bist.tried = 0 then d
  else
    let is := (List.range 42).filter (fun i => bit d.bist.tried i)
    let res (i : Nat) : Nat := judge d.bist.quick i (nth sigs i 0)
    let d1 := forEach is (fun i d => putResult i (nth sigs i 0) (res i) true d) d
    let d2 := putDue (dueMask d ||| d.bist.tried) d1
    let stop (i : Nat) (d : Dev) : Dev :=
      match bistBlk i with
      | some b => if i < 12 then quarantine i d else quiesceEnd b (enClear b d)
      | none => d
    let d3 := forEach (is.filter (fun i => res i == 2)) stop d2
    startCp0 (raise .bist 0 (onBist (fun x => { x with tried := 0 }) d3))

/-! ### Full tests (R418, R421, R423, R431) -/

/-- BUSY and CUR follow the indices under test (R432). -/
def showTests (d : Dev) : Dev :=
  wr (wr (wr d bistPstatusBusy (b2n (!d.bist.testing.isEmpty))) bistPstatusCur (d.bist.testing.headD 0)) bistRun
    (b2n (!d.bist.testing.isEmpty))

/-- Tests of the given indices begin. -/
def startTests (l : List Nat) (d : Dev) : Dev :=
  showTests (onBist (fun x => { x with testing := x.testing ++ l }) d)

/-- The index may be tested now (R418, R421): a pair freed of its skeins and disabled, or quarantined; another block
disabled and quiesced, while the module transmits nothing (with the CHT stopped, or in standby, too) or is QUIET with its twin
ALONE. -/
def runOk (st : TwinState) (d : Dev) (i : Nat) : Bool :=
  if i < 12 then
    actMask d i == 0 && (pstate d i == 5 || (!flag d (hdrEn (plyBlk i)) && !flag d (hdrActive (plyBlk i)) &&
      !flag d (hdrQuiescing (plyBlk i))))
  else
    let silent := (st == .quiet && d.twin.peer == .alone) || !isLive st || d.cht.computing.isNone || !inFrame d
    silent && (match bistBlk i with
      | some b => !flag d (hdrEn b) && !flag d (hdrActive b) && !flag d (hdrQuiescing b)
      | none => true)

/-- RUN written 1: the full test of RUN_SEL, a reserved value acting as the reset value 0 (R19, R421). -/
def runWrite (st : TwinState) (d : Dev) : Dev :=
  if flag d bistPstatusBusy then d
  else
    let i := if rd d bistRunSel < 42 then rd d bistRunSel else 0
    if runOk st d i then startTests [i] d else captureErr .bist 0x0101 0 d

/-- A tested block re-initialised to its reset values; its memories' contents are lost (R421), and a pair's injection
runs (R371, R431). -/
def reinit (i : Nat) (d : Dev) : Dev :=
  match bistBlk i with
  | some b =>
    if i < 12 then
      let quar := pstate d i == 5
      let vec := rd d (plyRejoinVec i) * 64
      let d1 := clearLocal i (onCore i (fun _ => Core.reset.goto vec) (resetPair i (resetWords b (blockDrop b d))))
      let was := ply d i
      if quar then
        onPly i (fun x => { x with tried := true, faults := was.faults, mismatched := was.mismatched, frozen := was.frozen })
          (wr d1 (plyPstateState i) 5)
      else d1
    else resetWords b (blockDrop b d)
  | none => { d with mem := d.mem.filter (fun e => !inSram e.1) }

/-- BIST_TEST_END: a full test ends (R421, R423). -/
def doBistTestEnd (st : TwinState) (i : Nat) (sig : Word) (d : Dev) : Dev :=
  if !d.bist.testing.contains i then d
  else
    let r := judge d.bist.golden i sig
    let d1 := reinit i (showTests (onBist (fun x => { x with testing := x.testing.erase i }) d))
    let d2 := raise .bist 0 (putResult i sig r false d1)
    let d3 := if r = 1 then putDue (putBit (dueMask d2) i false) d2 else if r = 3 then putDue (putBit (dueMask d2) i true) d2 else d2
    let d4 := if i < 12 && pstate d3 i == 5 then onPly i (fun x => { x with tested := decide (r = 1) }) d3 else d3
    let d5 := if r = 1 && pmode d4 == 1 then onBist (fun x => { x with pass := putBit x.pass i true }) d4 else d4
    if r = 2 then
      logFree 0x5101 (some (if st = .alone then 2 else 1)) (fun _ => [(2, i)]) (raise .bist 1 (captureErr .bist 0x0103 i d5))
    else if r = 3 then captureErr .bist 0x0102 0 d5
    else d5

/-- A quarantined pair whose skeins have left it is tested without a RUN (R92, R421). -/
def testQuarantined (d : Dev) : Dev :=
  if flag d bistPstatusBusy || !isRunning d then d
  else match (List.range 12).find? (fun p => pstate d p == 5 && actMask d p == 0 && !(ply d p).tried) with
    | some p => startTests [p] (onPly p (fun x => { x with tried := true }) d)
    | none => d

/-! ### Planned shut-down (R424, R431) -/

/-- An emergency announcement is PENDING or ACTIVE, or its START is committed at this point (R424, R425). -/
def emergencyHeld (d : Dev) : Bool :=
  (annList d).any (fun e => decide (24 ≤ e.2.prio) && decide (e.2.st ≤ 2)) ||
  (flag d (hdrActive .seq) && (cmdReadAll d).1.any (fun e => cmdWord e.2 0 % 256 == 1 && decide (24 ≤ bits (cmdWord e.2 1) 14 10)))

/-- The module stops computing frames (R424, R425, R93). -/
def stopComputing (d : Dev) : Dev := { d with cht := { d.cht with computing := none } }

/-- A committed SHUTDOWN (R424). -/
def shutdownApply (x : RD) : RD :=
  let d := x.2
  if x.1.state = .owner ∨ x.1.state = .partner ∨ emergencyHeld d ∨ !isRunning d then (x.1, captureErr .bist 0x0100 0 d)
  else
    let y := enterHold .quiet true 0 (x.1, stopComputing d)
    let d1 := logPersistAll (logEv 0x5104 0 0 [] 0 y.2)
    let d2 := forEach (allBlks.filter (fun b => b != .twin && flag d1 (hdrEn b))) enClear d1
    let d3 := onTwin (fun t => { t with stopping := true }) (disable .twin d2)
    (y.1, onBist (fun b => { b with shutFrame := d.clk.frame - 1, group := 0, pass := 0 }) (wr d3 bistPstatusPmode 1))

/-- The indices of a shut-down group (R422). -/
def groupOf (g : Nat) : List Nat := (List.range 42).filter (fun i => (bistTable i).2.1 == g)

/-- SHUTDOWN_GROUP_END: a group has ended, or before the first every quiesce has; the next group begins, or the record
is written and the module is off-ready (R424). -/
def doShutdownGroupEnd (d : Dev) : Dev :=
  if pmode d ≠ 1 || !d.bist.testing.isEmpty || (d.bist.group == 0 && allBlks.any (fun b => flag d (hdrQuiescing b))) then d
  else if d.bist.group < 5 then
    startTests (groupOf (d.bist.group + 1)) (onBist (fun b => { b with group := b.group + 1 }) d)
  else wr (writeRecord d) bistPstatusPmode 2

/-! ### Standby and wake (R425 to R427) -/

/-- The blocks that standby gates beside CP1 to CP11 (R425). -/
def gatedBlks : List Blk := [.spindle, .seq, .sup, .tag, .wear] ++ (List.range 12).map (fun k => .tdm (Fin.ofNat 12 k))

/-- A register page of a gated block (R426). -/
def gatedReg (a : Nat) : Bool := match blkAt a with | some b => gatedBlks.contains b | none => false

/-- A committed STANDBY (R425, R431). -/
def standbyApply (st : TwinState) (d : Dev) : Dev :=
  if st = .owner ∨ st = .partner ∨ st = .joining ∨ emergencyHeld d ∨ !isRunning d then captureErr .bist 0x0100 0 d
  else
    let d1 := forEach (annList d) (fun e d => annEnd (workFrame d) e.1 { e.2 with reason := 3 } d) (stopComputing d)
    let d2 := { d1 with seq := { d1.seq with zones := [] }, cht := { d1.cht with routes := [] } }
    let chans := (List.range 128).map (fun c => (c, flag d2 (chChCtrlEn c), flag d2 (chChStatusArmed c)))
    let en := (List.range gatedBlks.length).filter (fun i => flag d2 (hdrEn (gatedBlks.getD i .spindle)))
    let d3 := onBist (fun b => { b with savedChans := chans, savedEn := en, wakeHeld := false }) d2
    let d4 := forEach gatedBlks (fun b d => doIf (flag d (hdrEn b)) (enClear b) d) d3
    let d5 := forN 12 (fun p d => doIf (p != 0 && pstate d p != 5) (fun d => wr (stopPair p d) (plyPstateState p) 0) d) d4
    logFree 0x5105 none (fun _ => []) (wr (aonBegin d5) bistPstatusPmode 3)

/-- The retention area holds what the BIST block wrote; the manual gives its bytes no layout (R18, R426). -/
def writeRetention (d : Dev) : Dev :=
  let a := rd d bistRetBase * 256
  if inDram a && inDram (a + 0x7FFFF) then scramble (a, 0x80000) d else d

/-- What a gated block keeps over standby outside its pages (R426). -/
def gateDrop (d : Dev) : Dev :=
  let d1 := forEach gatedBlks blockDrop d
  let wearOf (k : Nat) : WearLine := { WearLine.reset with derate := (wearLine d k).derate }
  let supOf (k : Nat) : SupLine :=
    { SupLine.reset with candBands := (supLine d k).candBands, candNight := (supLine d k).candNight }
  let lines := (List.range 192).foldl (fun t k => tset (fun _ => WearLine.reset) t k (wearOf k)) []
  let sups := (List.range 192).foldl (fun t k => tset (fun _ => SupLine.reset) t k (supOf k)) []
  { d1 with wear := { d1.wear with models := d.wear.models, lines := lines },
            sup := { d1.sup with lines := sups },
            seq := { d1.seq with resetAnns := [] } }

/-- The pairs that standby gates (R425). -/
def gatedPairs : List Nat := (List.range 12).filter (fun p => p != 0)

/-- A gated pair, quarantined or not, loses its registers, its caches and its local memory in both plies. The registers of its page
stay as they are: the cold restart at wake needs them, and the manual lists no PLY page in the retention area (R421, R425 to R427;
DEDUCED, log entry 176). -/
def gatePair (p : Nat) (d : Dev) : Dev := clearLocal p (onCore p (fun _ => Core.reset) d)

/-- A wake event: applied, or held while standby is being entered (R427). -/
def wakeEvent (d : Dev) : Dev :=
  if pmode d = 4 then wr d bistPstatusPmode 5
  else if pmode d = 3 then onBist (fun b => { b with wakeHeld := true }) d
  else d

/-- AON_WAKE: a watched source meets its trigger: the EVC wakes, and a module in standby (R209, R210, R427). -/
def doAonWake (i : Nat) (d : Dev) : Dev :=
  if flag d (evcAonSelValid i) && aonMet d (rd d (evcAonSelSrc i)) then wakeEvent (evcWake i d) else d

/-- STANDBY_ENTRY_COMPLETE: every gated block has quiesced; state is saved and the blocks are gated (R426, R427). -/
def doStandbyEntryComplete (d : Dev) : Dev :=
  if pmode d ≠ 3 || gatedBlks.any (fun b => flag d (hdrQuiescing b)) then d
  else
    let saved := d.regs.filter (fun e => gatedReg e.1)
    let d0 := forEach gatedPairs gatePair (writeRetention d)
    let d1 := forEach gatedBlks resetWords (gateDrop d0)
    let d2 := wr (onBist (fun b => { b with saved := some saved, wakeHeld := false }) d1) bistPstatusPmode 4
    doIf d.bist.wakeHeld wakeEvent d2

/-- A Spindle channel as restored: no set active; EN and ARMED as saved load the shadow set (R224, R426). -/
def restoreChan (x : Nat × Bool × Bool) (d : Dev) : Dev :=
  let c := x.1
  let d1 := wr (wr (wr (wr d (chChStatusActive c) 0) (chChStatusQuiescing c) 0) (chChStatusPendEn c) 0) (chChStatusStopped c) 0
  let d2 := wr (wr (wr (wr d1 (chChStatusWaitTrig c) 0) (chChStatusLatched c) 0) (chChCtrlEn c) (b2n x.2.1)) (chChStatusArmed c)
    (b2n x.2.2)
  spAdvance c (spTryLoad c d2)

/-- WAKE_RESTORE: the area is restored, the gated blocks are enabled as saved, and every pair in service starts cold
(R378, R426, R427). -/
def doWakeRestore (d : Dev) : Dev :=
  if pmode d ≠ 5 then d
  else
    let d1 := forEach (d.bist.saved.getD []) (fun e d => wrw d e.1 e.2) d
    let d2 := forEach d.bist.savedChans restoreChan d1
    let d3 := forEach d.bist.savedEn (fun i d => enSet (gatedBlks.getD i .spindle) d) d2
    let d4 := forN 12 (fun p d => doIf (flag d (hdrEn (plyBlk p))) (pairResetApply p) d) d3
    raise .bist 3 (wr (onBist (fun b => { b with saved := none, savedChans := [], savedEn := [] }) d4) bistPstatusPmode 0)

/-! ### Loss of input power (R428, R439), module reset -/

/-- The hold-up begins: tests stop, the log is persisted, and the module abdicates at the next tick (R391, R428, R431). -/
def holdUp (d : Dev) : Dev :=
  if pmode d = 6 then d
  else
    let d0 := onBist (fun b => { b with heldFrom := pmode d }) d
    let d1 := wr (raise .bist 2 (inc d0 bistHoldupCount)) bistPstatusPmode 6
    let d2 := logFree 0x5102 (some 2) (fun v => [(2, v)]) (showTests (onBist (fun b => { b with testing := [] }) d1))
    logPersistAll (onTwin (fun t => { t with dying := true }) d2)

/-- SUPPLY_INPUT_LOSS: one input is lost: an amber record and nothing more, unless the other is lost already and the hold-up
begins (R428). -/
def doSupplyInputLoss (b : Bool) (d : Dev) : Dev :=
  let f := if b then bistPstatusPwrBOk else bistPstatusPwrAOk
  let other := if b then bistPstatusPwrAOk else bistPstatusPwrBOk
  if !flag d f then d
  else if flag d other then logFree 0x5102 (some 1) (fun v => [(2, v)]) (wr d f 0)
  else holdUp (wr d f 0)

/-- SUPPLY_BOTH_LOST: both inputs are below the lockout (R428). -/
def doSupplyBothLost (d : Dev) : Dev := holdUp (wr (wr d bistPstatusPwrAOk 0) bistPstatusPwrBOk 0)

/-- OVERTEMP_TRIP: handled as a loss of both inputs (R439). -/
def doOvertempTrip (d : Dev) : Dev := holdUp d

/-- What a reset of the module leaves: the part, the straps, the key store, NOR and the message store (R17, R68, R413,
R414, R429). Frame number, memories and every block begin again. -/
def moduleReset (slot : Bool) (x : RD) : RD :=
  let d := x.2
  let keep := [(0x04, 0xFFFFFFFF), (0x40, 0xFFFFFFFF), (0x44, 0xFFFFFFFF), (0x200044, 0xFFFFFFFF), (0x200048, 0xFFFFFFFF),
    (0x208044, 0xFFFFFFFF), (0x208048, 0xFFFFFFFF), (0x410048, 0x18), (0x520040, 0x08)]
  let d0 : Dev := { Dev.reset with
    mem := d.mem.filter (fun e => inRom e.1)
    freeCtr := d.freeCtr
    out := d.out
    bist := { BistSt.reset with cfg48 := d.bist.cfg48 }
    gw := { Gw.reset with keys := d.gw.keys }
    stor := { d.stor with op := none, logPend := [] } }
  let d1 := forEach keep (fun e y =>
    let m := BitVec.ofNat 32 e.2
    wrw y e.1 ((rdw d e.1 &&& m) ||| (rdw y e.1 &&& ~~~m))) d0
  (roleIn .startUp false x.1, wr d1 modSlotB (b2n slot))

/-- SUPPLY_RECOVERY: an input is back; in hold-up the flush ends and the module resets (R428). -/
def doSupplyRecovery (b : Bool) (x : RD) : RD :=
  let d := wr x.2 (if b then bistPstatusPwrBOk else bistPstatusPwrAOk) 1
  if pmode d = 6 then moduleReset (slotB d) (x.1, logPersistAll d) else (x.1, d)

/-- HOLDUP_END: power is lost (R428). Keys, BOOT_TRY_EN and every memory but NOR and the message store are gone. -/
def doHoldupEnd (x : RD) : RD :=
  if pmode x.2 ≠ 6 then x
  else
    let y := moduleReset (slotB x.2) (x.1, logPersistAll x.2)
    let d1 := wrw (wrw { y.2 with gw := Gw.reset } 0x520040 0) 0x410048 (regReset 0x410048)
    (y.1, onBist (fun b => { b with powered := false }) d1)

end Sys2Proof.Machine
end

