-- ==== Sys2Proof/Machine/Fabric.lean ====
section
/-! DEFINITION. The fabric: reads and writes of the address map by every initiator (R37 to R59, R459), and what a
write of each register starts. -/

namespace Sys2Proof.Machine

/-! ### Initiators and places -/

/-- Initiator hue (R39). -/
def iniHue (d : Dev) : Initiator → Nat
  | .core p => rd d (plyCoreHue p.val)
  | .spindle c => rd d (chChHue c.val)
  | .pcie => rd d gwPcieHue
  | .hank h => h.val
  | .bootRom => 0

/-- The path a timestamp latch belongs to (R49). -/
def iniPath : Initiator → Nat
  | .core p => p.val
  | .pcie => 12
  | .hank h => 13 + h.val
  | .bootRom => 29
  | .spindle _ => 30

/-- What lies at a system address (R37). -/
inductive Place where
  | page (b : Blk) (off : Nat)
  | bell (h : Hue) (off : Nat)
  | ram
  | rom
  | hole
  deriving DecidableEq, Repr

/-- The system map (R37, R40, R41, R251). -/
def placeOf (a : Nat) : Place :=
  if decide (0x40000000 ≤ a) && decide (a < 0x50000000) then
    match blkAt (a - 0x40000000) with
    | some b => .page b (canonOff b (a - 0x40000000))
    | none => .hole
  else if decide (0x50000000 ≤ a) && decide (a < 0x51000000) then
    if (a - 0x50000000) % 0x100000 < 0x10000 then .bell (Fin.ofNat 16 ((a - 0x50000000) / 0x100000)) ((a - 0x50000000) % 0x100000)
    else .hole
  else if inRam a then .ram
  else if inRom a then .rom
  else .hole

/-- The reach of an initiator (R39). -/
def reaches (i : Initiator) (a : Nat) : Bool :=
  match i, placeOf a with
  | .core _, _ | .bootRom, _ => true
  | .spindle _, .page _ _ | .spindle _, .bell _ _ => false
  | .spindle _, _ => true
  | .pcie, .page _ _ | .pcie, .bell _ _ => true
  | .pcie, .ram => inSram a
  | .hank _, .page _ _ | .hank _, .bell _ _ => true
  | _, _ => false

/-- A size and alignment that memory accepts (R50). -/
def memForm (a n : Nat) : Bool := (n == 1 || n == 2 || n == 4 || n == 8) && a % n == 0

/-- Statuses of an access, as a Hank operation carries them (R61): 0 OK, 1 UNMAPPED, 2 WIDTH, 3 NOT_OWNER, 4 HW_OWNED. -/
abbrev Status := Nat

/-! ### Who may write (R57, R59, R80, R199, R240, R254, R279) -/

/-- A field that H0 alone writes (R39, R56, R57, R68, R240, R254, R279). -/
def h0Only (b : Blk) (a : Nat) : Bool :=
  let o := a - blkBase b
  o == 0x28 ||
  (match b with
    | .hue _ => o == 0x40 || o == 0x44 || (decide (0x50 ≤ o) && decide (o ≤ 0x68))
    | .bobbin => decide (0x1040 ≤ o) && decide (o < 0x10C0)
    | .spindle => decide (0x2040 ≤ o) && decide (o < 0xA000) && decide (0x40 ≤ o % 0x1000) && decide (o % 0x1000 < 0x840) &&
        (o % 0x1000 - 0x40) % 0x80 == 0x10
    | .ply _ => decide (0x40 ≤ o) && decide (o ≤ 0x88) && o != 0x7C
    | _ => false)

/-- The Spindle channel a register belongs to (R240). -/
def chanOf (a : Nat) : Option Nat :=
  if decide (0x32040 ≤ a) && decide (a < 0x3A000) && decide (0x40 ≤ a % 0x1000) && decide (a % 0x1000 < 0x840) then
    some ((a - 0x32000) / 0x1000 * 16 + (a % 0x1000 - 0x40) / 0x80)
  else none

/-- The staging slot of the CHT a register belongs to (R80). -/
def stageSlotOf (a : Nat) : Option Nat :=
  if decide (0x52040 ≤ a) && decide (a < 0x54000) && decide (0x40 ≤ a % 0x1000) && decide (a % 0x1000 < 0x840) then
    some ((a - 0x52000) / 0x1000 * 8 + (a % 0x1000 - 0x40) / 0x100)
  else none

/-- Whether the initiator may write the register (R57 and the rules that depart from it). -/
def mayWrite57 (d : Dev) (i : Initiator) (b : Blk) (a : Nat) : Bool :=
  let h := iniHue d i
  let own := h == 0 || h == rd d (hdrOwner b)
  if h0Only b a then h == 0
  else if decide (0x20040 ≤ a) && decide (a < 0x20070) then true
  else match stageSlotOf a, chanOf a with
    | some s, _ => h == 0 || h == s
    | _, some c => own || h == rd d (chChHue c)
    | _, _ => own

/-- The write is refused by a rule of the block (R51, R459). -/
def hwOwned (d : Dev) (i : Initiator) (b : Blk) (a : Nat) (v : Nat) : Bool :=
  let o := a - blkBase b
  match b with
  | .evc => if 0x40 ≤ o ∧ o < 0x70 then i != .core (Fin.ofNat 12 ((o - 0x40) / 4)) else false
  | .cht =>
    if 0x80 ≤ o ∧ o < 0xB0 then i != .core (Fin.ofNat 12 ((o - 0x80) / 4))
    else if o = 0x40 then flag d (hdrEn b)
    else match stageSlotOf a with
      | some s => flag d (slotBusy s)
      | none => false
  | .hue h =>
    (decide (0xA0 ≤ o) && decide (o < 0xE0) && flag d (hueCtxStatusBusy h.val)) ||
    (o == 0x84 && h == 0 && bit v 0)
  | .bobbin => o == 0x40 && flag d (hdrEn b)
  | .log => o == 0x40 && flag d (hdrEn b)
  | .strm i =>
    if i = 0 ∧ (o = 0x88 ∨ o = 0x8C) then flag d (hdrEn b)
    else if decide (i = 0) && decide (0x2040 ≤ o) && decide (o < 0x6000) && decide (0x40 ≤ o % 0x1000) then
      let w0 := a - (o % 0x1000 - 0x40) % 0x20
      let en := bit (rdw d w0).toNat 0
      match rowAt w0 with
      | some r =>
        if (o % 0x1000 - 0x40) / 0x20 < (if o < 0x4000 then 64 else 48) && en then
          !(w0 == a && ((BitVec.ofNat 32 v ^^^ rdw d w0) &&& BitVec.ofNat 32 (r.rw - 1)) == 0)
        else false
      | none => false
    else false
  | .sup =>
    if o = 0x40 ∨ o = 0x44 then flag d (hdrEn b)
    else decide (0x3040 ≤ o) && decide (o < 0x4000) && flag d supBusy
  | .wear => (o == 0x4C && flag d (hdrEn b)) || (decide (0x1040 ≤ o) && flag d wearBusy)
  | .spindle =>
    match chanOf a with
    | some c =>
      let r := (a % 0x1000 - 0x40) % 0x80
      (decide (0x50 ≤ r) && decide (r < 0x70) && flag d (chChStatusArmed c)) || (r == 0x24 && !spRestartOk d c)
    | none => false
  | .ply p => o == 0x78 && bit v 0 && !(quarReleaseOk d p.val && iniHue d i == 0)
  | _ => false

/-! ### Reserved encodings (R19) -/

/-- A value of a register word that holds a reserved encoding (R19). -/
def resvEnc (d : Dev) (b : Blk) (o v : Nat) : Bool :=
  let f (hi lo : Nat) : Nat := bits v hi lo
  let out (lo hi x : Nat) : Bool := decide (x < lo) || decide (hi < x)
  match b with
  | .evc => decide (0x1040 ≤ o) && decide (o < 0x5000) && decide (0x40 ≤ o % 0x1000) && decide (o % 0x1000 < 0x840) &&
      o % 8 == 0 && decide (2 ≤ f 5 4)
  | .spindle =>
    let t := (o - 0x1040) / 16
    if o = 0x40 then f 15 0 == 0
    else if 0x1040 ≤ o ∧ o < 0x1140 then
      if o % 16 = 4 then f 15 0 == 0 || decide (f 15 0 ≤ f 31 16)
      else if o % 16 = 8 then
        decide ((if flag d (sptimerUnit t) then sampCycles d else 122880) ≤ f 16 0)
      else false
    else false
  | .log => o == 0x44 && f 1 0 == 3
  | .seq =>
    if o = 0x40 then decide (50 < f 5 0)
    else if o = 0x44 then f 15 0 == 0
    else decide (0x5040 ≤ o) && decide (o < 0x5440) && o % 8 == 0 && decide (0x8000 < f 31 16)
  | .cht => decide (0x1240 ≤ o) && decide (o < 0x1340) && f 1 0 == 3
  | .strm _ => o == 0x64 && out 1500 9000 (f 29 16)
  | .ptp => (o == 0x40 && f 2 1 == 3) || (o == 0x64 && f 15 0 == 0)
  | .sup =>
    if o = 0x48 then out 5 50 (f 7 0) || out 1 24 (f 15 8) || out 1 24 (f 23 16) || f 27 24 == 0
    else if o = 0x50 then out 1 50 (f 7 0)
    else if o = 0x5C then decide (v < 8 * groupLen d)
    else o == 0x3140 && decide (192 ≤ f 7 0)
  | .tag => o == 0x48 && decide (86400 ≤ f 16 0)
  | .wear => (o == 0x44 && decide (1024 < f 10 0)) || (o == 0x1080 && decide (192 ≤ f 7 0))
  | .bist => o == 0x44 && decide (42 ≤ f 5 0)
  | .stor => o == 0x50 && out 1 5 (f 2 0)
  | .cont =>
    if o = 0x40 then !(decide (f 15 0 < f 31 16) && decide (f 31 16 < contOpen d))
    else if o = 0x44 then !(decide (rd d contThreshActive < f 15 0)) || decide (20000 < f 15 0) || f 19 16 == 0
    else (o == 0x100 || o == 0x120) && (f 2 1 == 3 || f 31 16 == 0)
  | _ => false

/-- A reserved encoding written is captured (R19, R44). -/
def noteResv (b : Blk) (o v : Nat) (d : Dev) : Dev := if resvEnc d b o v then captureHalt b 0x0001 (o % 2 ^ 16) d else d

/-! ### Performing a register write -/

/-- A word of the register map written under its masks: configuration bits take the value, W1C flags clear where 1 is
written, and counters clear at any write (R16, R44, R51). -/
def maskWrite (a : Nat) (v : Nat) (d : Dev) : Dev :=
  match rowAt a with
  | none => d
  | some r =>
    let w := BitVec.ofNat 32 v
    let rw := BitVec.ofNat 32 r.rw
    let old := rdw d a
    wrw d a ((((old &&& ~~~rw) ||| (w &&& rw)) &&& ~~~(w &&& BitVec.ofNat 32 r.w1c)) &&& ~~~(BitVec.ofNat 32 r.clr))

/-- The header's registers but for CTRL (R43 to R45, R56). -/
def headerWrite (b : Blk) (o v : Nat) (d : Dev) : Dev :=
  if o = 0x14 then wrw d (blkBase b + 0x14) (rdw d (blkBase b + 0x14) &&& ~~~(BitVec.ofNat 32 v))
  else if o = 0x18 then wr d (hdrEvtEn b) v
  else if o = 0x1C then (if v = 0 then wr (wr (wr d (hdrCode b) 0) (hdrDetail b) 0) (hdrError b) 0 else d)
  else if o = 0x20 then wr d (hdrErrCount b) 0
  else if o = 0x24 then wr d (hdrAccessErr b) 0
  else if o = 0x28 then
    (match b with
      | .mod | .gw | .hue _ => d
      | _ => wr d (hdrOwner b) v)
  else d

/-- The words of an array of registers. -/
def words (d : Dev) (a n : Nat) : List W32 := (List.range n).map (fun i => rdw d (a + 4 * i))

/-- CTRL of the TWIN page: EN is not cleared in OWNER or PARTNER; elsewhere the link stops at the next tick; a reset
drops it (R46, R412). -/
def twinCtrl (w : Nat) (x : RD) : RD :=
  let d := x.2
  if flag d (hdrSoftRst .twin) then (x.1, softRstHold .twin w d)
  else if bit w 1 then onD (softRstStart .twin w) (linkDown x)
  else if !bit w 0 && flag d (hdrEn .twin) then
    if x.1.state = .owner ∨ x.1.state = .partner then
      (x.1, captureErr .twin 0x0107 0 (wr d (hdrHalt .twin) (w / 4 % 2)))
    else (x.1, onTwin (fun t => { t with stopping := true }) (ctrlWrite .twin w d))
  else (x.1, ctrlWrite .twin w d)

/-- CTRL of a block (R43, R53); a pair in the schedule is not disabled (R383). -/
def ctrlAct (b : Blk) (w : Nat) (x : RD) : RD :=
  match b with
  | .twin => twinCtrl w x
  | .ply p =>
    let d := x.2
    if !bit w 0 && !bit w 1 && flag d (hdrEn b) && !flag d (hdrSoftRst b) && actMask d p.val != 0 then
      (x.1, captureErr b 0x0107 0 (wr d (hdrHalt b) (w / 4 % 2)))
    else (x.1, ctrlWrite b w d)
  | _ => (x.1, ctrlWrite b w x.2)

/-- KEY_CTRL of the gateway (R65, R68). -/
def keyCtrl (st : TwinState) (v : Nat) (d : Dev) : Dev :=
  let h := rd d gwKeySel
  let d1 := if bit v 0 then
      let key := (List.range 8).foldl (fun k j => k + rd d (gwKeyData j) * 2 ^ (32 * j)) 0
      let d2 := forN 8 (fun j d => wr d (gwKeyData j) 0)
        { d with gw := { d.gw with keys := tset (fun _ => none) d.gw.keys h (some key) } }
      if bit v 2 then d2
      else submit st .bootRom (.seqFloor (Fin.ofNat 16 h)) none
        { d2 with gw := { d2.gw with flooring := tset (fun _ => false) d2.gw.flooring h true } }
    else d
  if bit v 1 then { d1 with gw := { d1.gw with keys := tset (fun _ => none) d1.gw.keys h none } } else d1

/-- What a performed write of a block register does (the chapters of the blocks). `o` is its offset in the block. -/
def regAct (i : Initiator) (hk : Option HankTag) (b : Blk) (o v : Nat) (x : RD) : RD :=
  let d := x.2
  let st := x.1.state
  let a := blkBase b + o
  let sub (op : ChangeOp) (d : Dev) : Dev := submit st i op hk d
  let plain : Dev := noteResv b o v (maskWrite a v d)
  let w32 : W32 := BitVec.ofNat 32 v
  (x.1, match b with
  | .gw =>
    if 0x4C ≤ o ∧ o < 0x6C then wrw d a w32
    else if o = 0x6C then keyCtrl st v d
    else plain
  | .hue h =>
    if o = 0x84 then (if bit v 0 then sub (.hueReset h) d else d)
    else if o = 0xA4 then
      let d1 := if bit v 0 then ctxReadSlot h.val d else d
      if bit v 1 then
        sub (.ctxWrite h (BitVec.ofNat 15 (rd d1 (hueCtxSel h.val))) (words d1 (hueCtxData h.val 0).off 8))
          (wr (wr d1 (hueCtxStatusBusy h.val) 1) (hueCtxCmdWrite h.val) 1)
      else d1
    else if o = (hueCmdQ 0).off % 0x1000 ∨ o = (hueCplQ 0).off % 0x1000 then ringClear plain
    else plain
  | .evc =>
    if 0x40 ≤ o ∧ o < 0x70 then evcCompleteWrite ((o - 0x40) / 4) (v % 1024) d
    else if 0x5040 ≤ o ∧ o < 0x5240 then
      (if o % 16 = 4 then evcPendWrite ((o - 0x5040) / 16) v d
       else if o % 16 = 8 then evcSwsetWrite ((o - 0x5040) / 16) v d else d)
    else if 0x1040 ≤ o ∧ o < 0x5000 ∧ 0x40 ≤ o % 0x1000 ∧ o % 0x1000 < 0x840 ∧ o % 8 = 0 then
      evcCfgWrite (o / 0x1000 * 256 - 256 + (o % 0x1000 - 0x40) / 8) (fun w => noteResv b o v (maskWrite a w d)) v
    else if 0x6400 ≤ o ∧ o < 0x6500 ∧ o % 8 = 0 then evcHoldoffWrite ((o - 0x6400) / 8) (v % 2 ^ 16) d
    else if o = 0x7140 then evcSleepWrite v d
    else if 0x7040 ≤ o ∧ o < 0x7100 ∧ o % 16 = 12 then noteResv b o v (maskWrite a v (waited ((o - 0x7040) / 16) d))
    else plain
  | .spindle =>
    (match chanOf a with
    | some c =>
      let r := (a % 0x1000 - 0x40) % 0x80
      if r = 0 then spWriteCtrl c v d
      else if r = 0x20 then spPut c { spGet d c with restart := v / 16 * 16 } d
      else if r = 0x24 then spRestart c v d
      else maskWrite a v d
    | none => plain)
  | .cht =>
    if o = 0x44 then
      let d1 := sub (.inval (BitVec.ofNat 9 v)) d
      if bit v 16 then sub .invalAll d1 else d1
    else if o = 0x58 then
      let d1 := maskWrite a v d
      let f := BitVec.ofNat 64 (rd64 d1 chtSwitchFrameLo chtSwitchFrameHi)
      let d2 := if bit v 0 then sub (.arm (slotB d1) (bit v 4) f (nextBank d1)) d1 else d1
      if bit v 1 then sub (.cancel (slotB d1) (bit v 4)) d2 else d2
    else if 0x80 ≤ o ∧ o < 0xB0 then doneWrite ((o - 0x80) / 4) v d
    else match stageSlotOf a with
      | some s =>
        if (a % 0x1000 - 0x40) % 0x100 = 0x84 then
          (if bit v 0 then
            sub (.staging (Fin.ofNat 16 s) (BitVec.ofNat 9 (rd d (slotIndex s))) (words d (slotData s 0).off 32))
              (wr (wr d (slotBusy s) 1) (slotCommit s) 1)
           else d)
        else maskWrite a v d
      | none => plain
  | .bobbin => if 0x1040 ≤ o ∧ o < 0x10C0 then bobLineHues plain else plain
  | .seq => if 0x5040 ≤ o ∧ o < 0x5440 then sub (.chime a w32) (noteResv b o v d) else plain
  | .ply p =>
    if o = 0x78 then
      let d1 := if bit v 0 then quarRelease p.val d else d
      if bit v 1 then sub (.pairReset p) d1 else d1
    else if o = 0x7C then dbgWriteCtrl p.val v d
    else plain
  | .strm n =>
    if n ≠ 0 ∧ (o = 0x88 ∨ o = 0x8C ∨ (0x100 ≤ o ∧ o < 0x200)) then d
    else if o = 0x64 then
      let keep := rd d (strmMtu n.val)
      sub (.mtu n w32) (noteResv b o v (wr (maskWrite a v d) (strmMtu n.val) keep))
    else if decide (n = 0) && decide (0x2040 ≤ o) && decide (o < 0x6000) && decide (0x40 ≤ o % 0x1000) &&
        (o % 0x1000 - 0x40) % 0x20 == 0 && (rowAt a).isSome then
      let en := bit (rdw d a).toNat 0
      let d1 := wrw (maskWrite a v d) a (BitVec.ofNat 32 (putBit (rdw (maskWrite a v d) a).toNat 0 en))
      let tx := decide (0x4000 ≤ o)
      let s := if tx then (o - 0x4000) / 0x1000 * 48 + (o % 0x1000 - 0x40) / 0x20
               else (o - 0x2000) / 0x1000 * 64 + (o % 0x1000 - 0x40) / 0x20
      sub (.streamEn tx (Fin.ofNat 128 s) (bit v 0)) d1
    else plain
  | .ptp =>
    if o = 0x68 then (if bit v 0 then doStepReqWrite st i d else d)
    else if o = 0x40 ∨ o = 0x44 then doIf (ptpRunning d) (ptpSelect (st == .partner && d.twin.linkUp)) plain
    else plain
  | .sup =>
    if o = 0x64 then
      let d1 := if bit v 0 then sub .nightStart d else d
      if bit v 1 then sub .nightAbort d1 else d1
    else if o = 0x3144 then
      let d1 := if bit v 0 then
          sub (.load (BitVec.ofNat 8 (rd d supStageLine)) (words d (supStageData 0).off 64))
            (wr (wr (wr d supDone 0) supBusy 1) supLoad 1)
        else d
      if bit v 1 then sub (.adopt (words d (supAdoptMask 0).off 6)) (wr (wr (wr d1 supDone 0) supBusy 1) supAdopt 1) else d1
    else if decide (o < 0x3000) && decide (0x40 ≤ o % 0x1000) then
      match rowAt a with
      | some r =>
        if r.rw ≠ 0 then sub (.supConfig a (w32 &&& BitVec.ofNat 32 r.rw)) (noteResv b o v d)
        else maskWrite a v d
      | none => d
    else plain
  | .tag =>
    if o = 0x44 then
      let d1 := sub (.supConfig a w32) d
      let d2 := if bit v 0 then sub (.passStart (words d1 (tagPassMask 0).off 6)) d1 else d1
      if bit v 1 then sub .passAbort d2 else d2
    else if o = 0x40 ∨ o = 0x48 then sub (.supConfig a w32) (noteResv b o v d)
    else plain
  | .wear =>
    if o = 0x44 then
      let d1 := sub (.supConfig a w32) (noteResv b o v d)
      if bit v 16 then sub .modelCommit (wr d1 wearModelCommit 1) else d1
    else if o = 0x40 ∨ o = 0x48 ∨ (0x100 ≤ o ∧ o < 0x400) then sub (.supConfig a w32) d
    else if o = 0x1084 then
      (if bit v 0 then
        sub (.wearRecord (BitVec.ofNat 8 (rd d wearRecLine)) (BitVec.ofNat 6 (rd d wearRecIndex)) (words d (wearRecData 0).off 16))
          (wr (wr d wearBusy 1) wearCommit 1)
       else d)
    else plain
  | .twin =>
    if o = 0x48 then
      let d1 := if bit v 0 || bit v 1 then sub (.twinQuiet (slotB d) (bit v 1)) d else d
      let d2 := if bit v 2 then sub (.twinRelease (slotB d)) d1 else d1
      if bit v 3 then sub (.twinJoin (slotB d)) d2 else d2
    else if o = 0x50 then (if bit v 0 then onTwin (fun t => { t with wdog := 0 }) d else d)
    else plain
  | .bist =>
    if o = 0x40 then
      let d1 := if bit v 0 then sub .shutdown d else d
      let d2 := if bit v 1 then sub .standby d1 else d1
      let d3 := if bit v 2 then sub .wake d2 else d2
      if bit v 3 then runWrite st d3 else d3
    else plain
  | .stor => if o = 0x50 then (if bit v 31 then storGo plain else plain) else plain
  | .cont => if o = 0x40 ∨ o = 0x44 then noteResv b o v (maskWrite a v (contKeepThresholds d)) else plain
  | .rel => if o = 0x40 then relWrite (v % 2 ^ 16) d else plain
  | _ => plain)

/-- A performed write of a page register (R46). -/
def pageWrite (i : Initiator) (hk : Option HankTag) (b : Blk) (a : Nat) (v : Nat) (x : RD) : RD :=
  let o := a - blkBase b
  if o = 8 then ctrlAct b v x
  else if flag x.2 (hdrSoftRst b) then x
  else if o < 0x40 then onD (headerWrite b o v) x
  else regAct i hk b o v x

/-- A performed write of a doorbell window (R251, R252). -/
def bellWrite (st : TwinState) (i : Initiator) (hk : Option HankTag) (h : Hue) (o v : Nat) (d : Dev) : Dev :=
  let port := o / 0x100
  let r := o % 0x100
  if r < 0x40 then stagedPut h.val port (r / 4) (BitVec.ofNat 32 v) d
  else if r = 0x40 then
    submit st i (.dbEnq h (BitVec.ofNat 8 port) (BitVec.ofNat 15 v)
      ((List.range 16).map (fun j => stagedGet d h.val port j))) hk d
  else if r = 0x44 then stagedPut h.val port 16 (BitVec.ofNat 32 (v % 2 ^ 15)) d
  else if r = 0x48 then
    let n := v % 2 ^ 17
    if n = 0 then d
    else if 65536 < n then captureErr (.hue h) 0x0001 o d
    else submit st i (.dbConsume h (BitVec.ofNat 8 port) (BitVec.ofNat 15 (stagedGet d h.val port 16).toNat) n) hk d
  else d

/-! ### The fabric's answer -/

/-- An access refused as unmapped (R38). -/
def unmapped (d : Dev) : Dev := inc d modUnmappedCount

/-- A refusal under R57 or R59: counted and logged (R57). -/
def refused57 (b : Blk) (a h : Nat) (d : Dev) : Dev :=
  let d1 := inc d (hdrAccessErr b)
  logEv 0x0101 h 0 [(8, a), (2, h)] (rd d1 (hdrAccessErr b)) d1

/-- A 32-bit write judged (R38, R47, R57, R59, R459); `b` is none for memory. -/
def judgeWrite (d : Dev) (i : Initiator) (a v : Nat) : Status :=
  if !reaches i a then 1
  else match placeOf a with
    | .page b off =>
      if a % 4 ≠ 0 then 2
      else if underTest d b then 1
      else if !mayWrite57 d i b off then 3
      else if hwOwned d i b off v then 4
      else 0
    | .bell h _ => if a % 4 ≠ 0 then 2 else if iniHue d i == 0 || iniHue d i == h.val then 0 else 3
    | _ => 1

/-- The page that counts a refusal at an address (R47, R57, R59, R459). -/
def countPage (a : Nat) : Option Blk :=
  match placeOf a with
  | .page b _ => some b
  | .bell h _ => some (.hue h)
  | _ => none

/-- What a refused access leaves (R38, R47, R57, R459). -/
def refuse (s : Status) (i : Initiator) (a : Nat) (d : Dev) : Dev :=
  match s, countPage a with
  | 1, _ => unmapped d
  | 3, some b => refused57 b a (iniHue d i) d
  | _, some b => inc d (hdrAccessErr b)
  | _, none => unmapped d

/-- One 32-bit write to a page or a doorbell window: true is an error response. -/
def write32 (i : Initiator) (hk : Option HankTag) (a v : Nat) (x : RD) : RD × Bool :=
  let s := judgeWrite x.2 i a v
  if s ≠ 0 then (onD (refuse s i a) x, true)
  else match placeOf a with
    | .page b off => (pageWrite i hk b off v x, false)
    | .bell h off => (onD (bellWrite x.1.state i hk h off v) x, false)
    | _ => (x, true)

/-- A write of bytes to memory: one in another's table is refused there (R50, R241, R332). -/
def memWrite (a : Nat) (l : List Byte) (d : Dev) : Dev × Bool :=
  match guardOf d a l.length with
  | some b => (countGuard b d, true)
  | none => (wrWindow a l d, false)

/-- A write access of `n` bytes (R37 to R50). -/
def busWrite (i : Initiator) (hk : Option HankTag) (a n : Nat) (v : Word) (x : RD) : RD × Bool :=
  let page := match placeOf a with | .page _ _ | .bell _ _ => true | _ => false
  if page && reaches i a then
    if n = 4 ∧ a % 4 = 0 then write32 i hk a (v.toNat % 2 ^ 32) x
    else if n = 8 ∧ a % 8 = 0 then
      let y := write32 i hk a (v.toNat % 2 ^ 32) x
      let z := write32 i hk (a + 4) (v.toNat / 2 ^ 32) y.1
      (z.1, y.2 || z.2)
    else (onD (refuse 2 i a) x, true)
  else if reaches i a && inRam a && memForm a n && !fenced x.2 a n then
    let r := memWrite a (leBytes n v.toNat) x.2
    ((x.1, r.1), r.2)
  else (onD unmapped x, true)

/-- A burst: any set of the bytes of the 128-byte block of `a`, in one request. Memory takes it whole or not at all, another
block's table refuses it, and the register pages take none (R38, R47, R50, R241, R332). -/
def busBurst (i : Initiator) (a : Nat) (l : List (Nat × Byte)) (x : RD) : RD × Bool :=
  let page := match placeOf a with | .page _ _ | .bell _ _ => true | _ => false
  let base := a / 128 * 128
  if page && reaches i a then (onD (refuse 2 i a) x, true)
  else if reaches i a && inRam a && !fenced x.2 base 128 then
    match l.findSome? (fun c => guardOf x.2 (base + c.1) 1) with
    | some b => (onD (countGuard b) x, true)
    | none => (onD (forEach l (fun c d => wrWindow (base + c.1) [c.2] d)) x, false)
  else (onD unmapped x, true)

/-! ### Reads (R41, R42, R47, R49, R58) -/

/-- Word `i` of the directory (R42). -/
def dirWord (i : Nat) : Nat :=
  let rows := [(0x0001, 1, 1, 0x40000, 0), (0x0002, 1, 1, 0x40001, 0), (0x0003, 16, 1, 0x40010, 1), (0x0010, 1, 8, 0x40020, 0),
    (0x0011, 1, 16, 0x40030, 0), (0x0012, 1, 4, 0x40040, 0), (0x0013, 1, 4, 0x40050, 0), (0x0014, 1, 8, 0x40060, 0),
    (0x0015, 1, 1, 0x40070, 0), (0x0020, 12, 1, 0x40100, 1), (0x0030, 2, 8, 0x40200, 8), (0x0031, 1, 1, 0x40210, 0),
    (0x0032, 12, 1, 0x40220, 1), (0x0040, 1, 16, 0x40300, 0), (0x0041, 1, 4, 0x40310, 0), (0x0042, 1, 2, 0x40320, 0),
    (0x0050, 1, 2, 0x40400, 0), (0x0051, 1, 2, 0x40410, 0), (0x0060, 1, 1, 0x40500, 0), (0x0061, 1, 1, 0x40510, 0),
    (0x0062, 1, 2, 0x40520, 0)]
  match rows[i / 2]? with
  | none => 0
  | some r => if i % 2 = 0 then r.1 * 0x10000 + r.2.1 * 0x100 + r.2.2.1 else r.2.2.2.1 + r.2.2.2.2 * 2 ^ 28

/-- This module sends media on a network (R292, R401). -/
def txActive (st : TwinState) (d : Dev) (net : Nat) : Bool :=
  inFrame d && strmRunning d net && (match st with
    | .owner => net == 0
    | .partner => net == 1
    | .alone => true
    | _ => false)

/-- A port drives its lines (R298, R299). -/
def tdmDrives (st : TwinState) (d : Dev) (k : Nat) : Bool :=
  flag d (tdmOutEn k) && isLive st && !tget (fun _ => false) d.strm.tdmStopped k && inFrame d &&
  (flag d (hdrActive (.tdm (Fin.ofNat 12 k))) || flag d (hdrQuiescing (.tdm (Fin.ofNat 12 k))))

/-- Live values that the register words of the SEQ pages show (R272). -/
def seqShown (d : Dev) (o : Nat) : Option Nat :=
  if o = 0x48 then some (annList d).length
  else if decide (0x1040 ≤ o) && decide (o < 0x3000) && decide (0x40 ≤ o % 0x1000) && decide (o % 0x1000 < 0x840) then
    let a := (o / 0x1000 - 1) * 128 + (o % 0x1000 - 0x40) / 16
    some (match annGet d a with
      | none => 0
      | some x =>
        if o % 16 = 0 then x.st + x.hue * 2 ^ 4 + x.prio * 2 ^ 8 + x.source * 2 ^ 16
        else if o % 16 = 4 then x.tag.toNat
        else if o % 16 = 8 then x.handle.toNat / 2 ^ 16 % 2 ^ 32
        else x.handle.toNat / 2 ^ 48)
  else if decide (0x3040 ≤ o) && decide (o < 0x3640) then
    let z := zoneGet d ((o - 0x3040) / 8)
    some (if o % 8 = 0 then
        z.holder.getD 0 + b2n z.holder.isSome * 2 ^ 8 + b2n (z.holder.isSome && z.gt == 0) * 2 ^ 9 + z.gEnd % 2 ^ 16 * 2 ^ 16
      else z.j % 2 ^ 9 + z.f % 2 ^ 9 * 2 ^ 16)
  else if decide (0x4040 ≤ o) && decide (o < 0x4440) then
    let p := playerGet d ((o - 0x4040) / 16)
    some (if o % 16 = 0 then p.slot.getD 0 + b2n p.slot.isSome * 2 ^ 8 + b2n p.ready * 2 ^ 9
      else if o % 16 = 4 then p.item.toNat
      else if o % 16 = 8 then p.pos % 2 ^ 32
      else p.left % 2 ^ 16)
  else none

/-- Whether the set of Spindle channels shown by word `j` has bit `i` (R240). -/
def chanBits (d : Dev) (f : Nat → Fld) (j : Nat) : Nat :=
  ((List.range 32).map (fun i => b2n (flag d (f (32 * j + i))) * 2 ^ i)).sum

/-- The conditions of `EVT_RAW` that stand (R43, R45): those that name a state the block is in. A bit that names an event
of one instant is 1 at that instant only, and reads 0 (DESIGN CHOICE, log entry 121). -/
def rawBits (d : Dev) (b : Blk) : Nat :=
  match b with
  | .spindle => b2n (spAnyStopped d)
  | .ptp => b2n (rd d ptpState == 2) + 2 * b2n (rd d ptpState == 3)
  | .strm i => 16 * b2n (rd d (strmIgmpMode i.val) != 3)
  | .wear => 2 * b2n (rd d wearHotLines != 0)
  | .ply p => 8 * b2n (pstate d p.val == 5) + 16 * b2n (flag d (plyDbgHalted p.val))
  | .twin => 2 * b2n d.twin.peerSilent + 16 * b2n (d.twin.lineSpell || d.twin.linkSpell)
  | .bist => 4 * b2n (pmode d == 6)
  | .rel => b2n (rd d relOc != 0) + 2 * b2n (rd d relMismatch != 0)
  | _ => 0

/-- The carrier's selector passes this module's ports: with both ownership lines low it passes slot B's (R388, R308). -/
def selected (r : Role) (d : Dev) : Bool := r.ownLow && (slotB d || !d.twin.peerOwnLow)

/-- Words of the pages that show live state rather than a stored value; none where the word is stored. -/
def shown (r : Role) (d : Dev) (b : Blk) (o : Nat) : Option Nat :=
  if o = 0x10 then some (rawBits d b + b2n (rd d (hdrCode b) != 0) * 2 ^ 31)
  else match b with
  | .mod =>
    if o = 0x48 then some (d.clk.frame.toNat % 2 ^ 32)
    else if o = 0x4C then some (d.clk.frame.toNat / 2 ^ 32)
    else if o = 0x50 then some ((ptpNs d).toNat % 2 ^ 32)
    else if o = 0x54 then some ((ptpNs d).toNat / 2 ^ 32)
    else if decide (0x100 ≤ o) then some (dirWord ((o - 0x100) / 4))
    else none
  | .gw =>
    let last := (tget (fun _ => (0 : Word)) d.gw.last (rd d gwKeySel)).toNat
    if decide (0x4C ≤ o) && decide (o < 0x70) then some 0
    else if o = 0x70 then
      some ((List.range 16).map (fun h => b2n (tget (fun _ => none) d.gw.keys h).isSome * 2 ^ h)).sum
    else if o = 0x80 then some (last % 2 ^ 32)
    else if o = 0x84 then some (last / 2 ^ 32)
    else none
  | .hue h =>
    let q := rd d (huePeekQ h.val)
    let c := rdCtx d q
    if o = 0x48 then some ((hueUsed d h.val).1 % 2 ^ 16)
    else if o = 0x4C then some ((hueUsed d h.val).2 % 2 ^ 24)
    else if o = 0x104 then some (c.head % 2 ^ 17)
    else if o = 0x108 then some (occ c % 2 ^ 17)
    else if decide (0x140 ≤ o) && decide (o < 0x180) then
      some (if occ c = 0 || decide (entryBytes c ≤ o - 0x140) then 0 else rdN d (entryAddr c c.head + (o - 0x140)) 4)
    else none
  | .evc =>
    if decide (0x7040 ≤ o) && decide (o < 0x7100) && o % 16 == 4 then
      let n := (o - 0x7040) / 16
      some (putBits (putBits (rdw d (0x20000 + o)).toNat 4 0
        ((core d n).level % 16 + b2n (core d n).waiting.isSome * 16)) 6 6
          (b2n (!canServe d n && !(pstate d n == 0 && ply d n == PlySt.reset))))
    else if decide (0x6404 ≤ o) && decide (o < 0x6504) && o % 8 == 4 then
      let left := rd d (evcHoldRemain ((o - 0x6404) / 8))
      some (if left = 0 then 0 else 1 + (freshVal d).toNat % left)
    else if o = 0x7108 then
      some (if rd d evcStillLimit = 0 || (stillGroup d).isEmpty || !allWait d || d.evc.fired then 0
        else (freshVal d).toNat % rd d evcStillLimit)
    else none
  | .spindle =>
    if o = 0x44 then some (inFlight d SpChan.reads + inFlight d SpChan.writes * 2 ^ 8)
    else if o = 0x48 then some ((spHeldAll d + 1023) / 1024 % 2 ^ 9)
    else if decide (0x54 ≤ o) && decide (o < 0x64) then some (chanBits d chChStatusActive ((o - 0x54) / 4))
    else if decide (0x64 ≤ o) && decide (o < 0x74) then some (chanBits d chChStatusStopped ((o - 0x64) / 4))
    else none
  | .bobbin => if o = 0x54 then some ((ctxEnabled d).length % 2 ^ 16) else none
  | .cht =>
    if o = 0x48 then some (pendCount d)
    else if o = 0x44 || (decide (0x80 ≤ o) && decide (o < 0xB0)) then some 0
    else none
  | .seq => seqShown d o
  | .log => if o = 0x48 then some (d.log.fifo.length % 2 ^ 10 + rd d logFifoPeak * 2 ^ 16) else none
  | .strm n =>
    if o = 0x40 then some (putBit (rdw d (blkBase b + 0x40)).toNat 1 (txActive r.state d n.val))
    else if o = 0x84 then some (wireBytes d n.val % 2 ^ 16)
    else if n ≠ 0 && (o == 0x88 || o == 0x8C || (decide (0x100 ≤ o) && decide (o < 0x200))) then some 0
    else none
  | .ply p => if o = 0x54 then some (min 3 (windowFaults d p.val)) else none
  | .ptp => if o = 0x68 then some (2 * b2n (!d.ptp.steps.isEmpty)) else none
  | .tdm k => if o = 0x44 then some (b2n (tdmDrives r.state d k.val) + 2 * b2n (selected r d)) else none
  | .twin =>
    let s := r.state
    let peer := d.twin.peerOwnLow
    let me := slotB d
    if o = 0x44 then
      some (stCode s + stCode d.twin.peer * 2 ^ 3 + b2n d.twin.linkUp * 2 ^ 6 + laneCount d * 2 ^ 7 + b2n d.twin.peerSilent * 2 ^ 10 +
        b2n (if me then peer else r.ownLow) * 2 ^ 11 + b2n (if me then r.ownLow else peer) * 2 ^ 12 + b2n r.hold * 2 ^ 13)
    else if o = 0x80 then some (d.commit.applied % 2 ^ 32)
    else if o = 0x84 then some (d.commit.applied / 2 ^ 32 % 2 ^ 32)
    else none
  | _ => none

/-- The word a register reads as now. -/
def regLive (r : Role) (d : Dev) (b : Blk) (a : Nat) : Nat :=
  match shown r d b (a - blkBase b) with
  | some v => v
  | none => (rdw d a).toNat

/-- The low words of the timestamp registers (R49). -/
def stampLow (b : Blk) (o : Nat) : Bool :=
  match b with
  | .mod => o == 0x48 || o == 0x50
  | .gw => o == 0x80
  | .hue _ => o == 0x7C
  | .spindle => decide (0x2040 ≤ o) && decide (o < 0xA000) && decide (0x40 ≤ o % 0x1000) && decide (o % 0x1000 < 0x840) &&
      (o % 0x1000 - 0x40) % 0x80 == 0x18
  | .cht => o == 0x64 || (decide (0x2040 ≤ o) && decide (o < 0x4000) && decide (0x40 ≤ o % 0x1000) && decide (o % 0x1000 < 0x840) &&
      (o % 0x1000 - 0x40) % 0x100 == 0x8C)
  | .seq => decide (0x1040 ≤ o) && decide (o < 0x3000) && decide (0x40 ≤ o % 0x1000) && decide (o % 0x1000 < 0x840) && o % 16 == 8
  | .ptp => o == 0x58
  | .ply _ => o == 0x4C || o == 0x84
  | .twin => o == 0x5C || o == 0x80
  | .bist => decide (0x1040 ≤ o) && decide (o < 0x12E0) && o % 16 == 0
  | _ => false

/-- The key of a path's latch (R49). -/
def latchKey (i : Initiator) (a : Nat) : Nat := 32 * a + iniPath i

/-- A register word read: a low timestamp word latches its high word, which then reads latched (R49). -/
def regRead (i : Initiator) (b : Blk) (a : Nat) (r : Role) (d : Dev) : Nat × Dev :=
  let o := a - blkBase b
  let v := regLive r d b a
  if stampLow b o then
    (v, { d with latch := tset (fun _ => none) d.latch (latchKey i a) (some (BitVec.ofNat 32 (regLive r d b (a + 4)))) })
  else if decide (0x44 ≤ o) && stampLow b (o - 4) then
    match tget (fun _ => none) d.latch (latchKey i (a - 4)) with
    | some w => (w.toNat, d)
    | none => (v, d)
  else (v, d)

/-- A register that shows a count of cycles, of which the model knows the bounds alone: HOLD_REMAIN and STILL_COUNT of the EVC
(R198, R207). Each read takes a free value of its own (log entry 150). -/
def openRead (b : Blk) (o : Nat) : Bool :=
  b == .evc && ((decide (0x6404 ≤ o) && decide (o < 0x6504) && o % 8 == 4) || o == 0x7108)

/-- WAIT_CYCLES counts a wait as it goes on, so an access to it first brings it to that moment (R206, R212). -/
def waitShown (b : Blk) (o : Nat) (d : Dev) : Dev :=
  if b == .evc && decide (0x7040 ≤ o) && decide (o < 0x7100) && o % 16 == 12 then waited ((o - 0x7040) / 16) d else d

/-- A 32-bit read of a page or doorbell window. -/
def read32 (i : Initiator) (a : Nat) (x : RD) : Nat × RD :=
  match placeOf a with
  | .page b off =>
    let r := regRead i b off x.1 (waitShown b (off - blkBase b) x.2)
    (r.1, (x.1, doIf (openRead b (off - blkBase b)) freshNext r.2))
  | _ => (0, x)

/-- A read access of `n` bytes: the value, true for an error response (R38, R47, R50). -/
def busRead (i : Initiator) (a n : Nat) (x : RD) : Word × Bool × RD :=
  let page := match placeOf a with | .page b _ => !underTest x.2 b | .bell _ _ => true | _ => false
  if page && reaches i a then
    if n = 4 ∧ a % 4 = 0 then
      let r := read32 i a x
      (BitVec.ofNat 64 r.1, false, r.2)
    else if n = 8 ∧ a % 8 = 0 then
      let l := read32 i a x
      let h := read32 i (a + 4) l.2
      (BitVec.ofNat 64 (l.1 + h.1 * 2 ^ 32), false, h.2)
    else if (n = 1 ∨ n = 2) ∧ a % n = 0 then
      let r := read32 i (a / 4 * 4) x
      (BitVec.ofNat 64 (r.1 &&& ((2 ^ (8 * n) - 1) * 2 ^ (8 * (a % 4)))), false, r.2)
    else (0, true, onD (refuse 2 i a) x)
  else if reaches i a && (inRam a || inRom a) && memForm a n && !fenced x.2 a n then
    if (windowUpsets x.2 a n).contains true then (0, true, onD (windowCorrected a n) x)
    else (BitVec.ofNat 64 (rdN x.2 a n), false, onD (windowCorrected a n) x)
  else (0, true, onD unmapped x)

end Sys2Proof.Machine
end

