-- ==== Sys2Proof/Machine/RegCmd.lean ====
section
/-! DEFINITION. A command that is an access to the register pages: it is judged and performed as any access of its
initiator is (R38, R47, R57, R59). -/

namespace Sys2Proof.Machine

/-- A write access; a refused one leaves what its refusal counts. -/
def accessCmd (ini : Initiator) (a n : Nat) (v : Word) (s : State) : Result := onBoth s (fun x => (busWrite ini none a n v x).1)

/-- A 32-bit write of `v` at register offset `off`. -/
def regCmd (ini : Initiator) (off v : Nat) (s : State) : Result :=
  accessCmd ini (0x40000000 + off) 4 (BitVec.ofNat 64 v) s

/-- A 32-bit write at register offset `off` that changes some fields of the word and writes the others as they stand. -/
def regEdit (ini : Initiator) (off : Nat) (f : Nat → Nat) (s : State) : Result :=
  regCmd ini off (f (rdw s.dev off).toNat) s

/-- EN of a Spindle channel as a command that leaves it alone writes it: set while EN or PEND_EN reads 1 (R236). -/
def chEnBit (d : Dev) (c : Nat) : Nat := b2n (flag d (chChCtrlEn c) || flag d (chChStatusPendEn c))

/-- Register offset of a doorbell window, 256 MiB above the pages (R37, R251). -/
def bellOff (h : Hue) (port : Byte) : Nat := 0x10000000 + h.val * 0x100000 + port.toNat * 0x100

/-- The PTP servo follows the twin: PARTNER with the link up (R300). -/
def followsTwin (s : State) : Bool := s.role.state == .partner && s.dev.twin.linkUp

end Sys2Proof.Machine
end

