-- ==== Sys2Proof/Machine/ExecBobbin.lean ====
section
/-! DEFINITION. The commands of bobbins, hues, the sequencer and the log (R242 to R279). -/

namespace Sys2Proof.Machine

/-- CTX_READ (R244). -/
def execCtxRead (ini : Initiator) (h : Hue) (s : State) : Result := regCmd ini (hueCtxCmdRead h.val).off 1 s

/-- CTX_WRITE (R244). -/
def execCtxWrite (ini : Initiator) (h : Hue) (s : State) : Result := regCmd ini (hueCtxCmdRead h.val).off 2 s

/-- DOORBELL_ENQ (R252). -/
def execDoorbellEnq (ini : Initiator) (h : Hue) (port : Byte) (v : W32) (s : State) : Result :=
  regCmd ini (bellOff h port + 0x40) v.toNat s

/-- DOORBELL_CONSUME (R252). -/
def execDoorbellConsume (ini : Initiator) (h : Hue) (port : Byte) (v : W32) (s : State) : Result :=
  regCmd ini (bellOff h port + 0x48) v.toNat s

/-- HUE_RESET (R257). -/
def execHueReset (ini : Initiator) (h : Hue) (s : State) : Result :=
  regCmd ini (Sys2Proof.Machine.hueReset h.val).off 1 s

/-- HUE_RESET_DONE (R257). -/
def execHueResetDone (h : Hue) (s : State) : Result := onDev s (doHueResetDone h.val)

/-- SEQ_START (R263). -/
def execSeqStart (h : Hue) (words : List Word) (s : State) : Result := onDev s (doSeqStart h.val words)

/-- SEQ_CANCEL (R264). -/
def execSeqCancel (h : Hue) (words : List Word) (s : State) : Result := onDev s (doSeqCancel h.val words)

/-- SEQ_CANCEL_ALL (R264). -/
def execSeqCancelAll (h : Hue) (words : List Word) (s : State) : Result := onDev s (doSeqCancelAll h.val words)

/-- SEQ_RESERVED_OPCODE (R263). -/
def execSeqReservedOpcode (h : Hue) (words : List Word) (s : State) : Result :=
  onDev s (doSeqReservedOpcode h.val words)

/-- PLAYER_PREFETCH_READ (R269). -/
def execPlayerPrefetchRead (pl : Fin 64) (ok0 ok1 : Bool) (s : State) : Result :=
  onDev s (doPlayerPrefetchRead pl.val ok0 ok1)

/-- READY_TIMEOUT (R261). -/
def execReadyTimeout (slot : Byte) (s : State) : Result := onDev s (doReadyTimeout slot.toNat)

/-- PLAYER_ADVANCE (R269). -/
def execPlayerAdvance (s : State) : Result := onDev s doPlayerAdvance

/-- LOG_EVENT (R276). -/
def execLogEvent (e : LogEvent) (s : State) : Result := onDev s (doLogEvent e)

/-- LOG_WRITE (R273). -/
def execLogWrite (err : MemErr) (s : State) : Result := onDev s (doLogWrite err)

/-- LOG_RETRY (R273). -/
def execLogRetry (err : MemErr) (s : State) : Result := onDev s (doLogRetry err)

/-- LOST_RECORD_WRITE (R277). -/
def execLostRecordWrite (s : State) : Result := onDev s doLostRecordWrite

end Sys2Proof.Machine
end

