-- ==== Sys2Proof/Machine/ExecCmac.lean ====
section
/-! DEFINITION. The commands of the CMAC units (R134 to R143). -/

namespace Sys2Proof.Machine

/-- CMUL (R138). -/
def execCmul (p : Pair) (c : Fin 4) (k : Fin 4) (v : Word) (sat : Bool) (s : State) : Result :=
  opCmd p (cmacPort c 0x08 k) v sat s

/-- CMULC (R138). -/
def execCmulc (p : Pair) (c : Fin 4) (k : Fin 4) (v : Word) (sat : Bool) (s : State) : Result :=
  opCmd p (cmacPort c 0x0c k) v sat s

/-- CMAC (R138). -/
def execCmac (p : Pair) (c : Fin 4) (k : Fin 4) (v : Word) (sat : Bool) (s : State) : Result :=
  opCmd p (cmacPort c 0x10 k) v sat s

/-- CMACC (R138). -/
def execCmacc (p : Pair) (c : Fin 4) (k : Fin 4) (v : Word) (sat : Bool) (s : State) : Result :=
  opCmd p (cmacPort c 0x14 k) v sat s

/-- CMSC (R138). -/
def execCmsc (p : Pair) (c : Fin 4) (k : Fin 4) (v : Word) (sat : Bool) (s : State) : Result :=
  opCmd p (cmacPort c 0x18 k) v sat s

/-- CMSCC (R138). -/
def execCmscc (p : Pair) (c : Fin 4) (k : Fin 4) (v : Word) (sat : Bool) (s : State) : Result :=
  opCmd p (cmacPort c 0x1c k) v sat s

/-- QDOT (R138). -/
def execQdot (p : Pair) (c : Fin 4) (k : Fin 4) (v : Word) (sat : Bool) (s : State) : Result :=
  opCmd p (cmacPort c 0x20 k) v sat s

/-- QDOTN (R138). -/
def execQdotn (p : Pair) (c : Fin 4) (k : Fin 4) (v : Word) (sat : Bool) (s : State) : Result :=
  opCmd p (cmacPort c 0x24 k) v sat s

/-- QSET (R138). -/
def execQset (p : Pair) (c : Fin 4) (k : Fin 4) (v : Word) (sat : Bool) (s : State) : Result :=
  opCmd p (cmacPort c 0x28 k) v sat s

/-- CLR (R138). -/
def execClr (p : Pair) (c : Fin 4) (k : Fin 4) (s : State) : Result := opCmd p (cmacPort c 0x2C k) 0 false s

/-- EXTR (R141). -/
def execExtr (p : Pair) (c : Fin 4) (k : Fin 4) (sat : Bool) (s : State) : Result :=
  opCmd p (cmacPort c 0x30 k) 0 sat s

/-- RAWX (R142). -/
def execRawx (p : Pair) (c : Fin 4) (k : Fin 4) (v : Word) (s : State) : Result :=
  opCmd p (cmacPort c 0x34 k) v false s

/-- RAWW (R142). -/
def execRaww (p : Pair) (c : Fin 4) (k : Fin 4) (v : Word) (s : State) : Result :=
  opCmd p (cmacPort c 0x38 k) v false s

/-- CMAC_STAT_CLEAR (R143). -/
def execCmacStatClear (p : Pair) (c : Fin 4) (s : State) : Result := opCmd p (cmacPort c 0x05 0) 0 false s

end Sys2Proof.Machine
end

