-- ==== Sys2Proof/Machine/ExecCont.lean ====
section
/-! DEFINITION. The commands of contacts, RS-485 and relays (R441 to R455). -/

namespace Sys2Proof.Machine

/-- CONTACT_READING (R448). -/
def execContactReading (n : Fin 32) (ohms : BitVec 16) (s : State) : Result :=
  onDev s (doContactReading n.val ohms.toNat)

/-- RS485_CHAR_RX (R452). -/
def execRs485CharRx (port : Fin 2) (char : Byte) (parityErr framingErr brk : Bool) (s : State) : Result :=
  onDev s (doRs485CharRx port.val char parityErr framingErr brk)

/-- RS485_IDLE_CLOSE (R452). -/
def execRs485IdleClose (port : Fin 2) (s : State) : Result := onDev s (doRs485IdleClose port.val)

/-- RS485_TX_ENTRY (R452). -/
def execRs485TxEntry (port : Fin 2) (s : State) : Result := onDev s (doRs485TxEntry port.val)

/-- REL_OUT_WRITE (R455). -/
def execRelOutWrite (ini : Initiator) (v : BitVec 16) (s : State) : Result := regCmd ini relOut.off v.toNat s

/-- REL_OVERCURRENT (R450). -/
def execRelOvercurrent (n : Fin 16) (s : State) : Result := onDev s (doRelOvercurrent n.val)

/-- REL_MISMATCH (R450). -/
def execRelMismatch (n : Fin 16) (s : State) : Result := onDev s (doRelMismatch n.val)

end Sys2Proof.Machine
end

