-- ==== Sys2Proof/Machine/ExecCore.lean ====
section
/-! DEFINITION. The commands of bundle issue, branches, loops and WAIT (R95 to R133, R182 to R186, R206). -/

namespace Sys2Proof.Machine

/-- BUNDLE_ISSUE (R96). -/
def execBundleIssue (p : Pair) (s : State) : Result := onDev s (doBundleIssue p.val)

/-- FIXED_LATENCY_LAND (R111). -/
def execFixedLatencyLand (p : Pair) (s : State) : Result := onDev s (doFixedLatencyLand p.val)

/-- SYNC_CLASS_APPLY (R123). -/
def execSyncClassApply (p : Pair) (s : State) : Result := onDev s (doSyncClassApply p.val)

/-- SYNC_BUNDLE (R124). -/
def execSyncBundle (p : Pair) (s : State) : Result := onDev s (doSyncBundle p.val)

/-- JUMP (R117). -/
def execJump (p : Pair) (v : Word) (s : State) : Result := opCmd p 0x3C0 v false s

/-- BR (R117). -/
def execBr (p : Pair) (v : Word) (s : State) : Result := opCmd p 0x3C1 v false s

/-- CALL (R117). -/
def execCall (p : Pair) (v : Word) (s : State) : Result := opCmd p 0x3C2 v false s

/-- CALLR (R117). -/
def execCallr (p : Pair) (v : Word) (s : State) : Result := opCmd p 0x3C3 v false s

/-- RET (R117). -/
def execRet (p : Pair) (s : State) : Result := opCmd p 0x3C4 0 false s

/-- RTI (R132). -/
def execRti (p : Pair) (s : State) : Result := opCmd p 0x3C5 0 false s

/-- LCOUNT (R183). -/
def execLcount (p : Pair) (lvl : Fin 3) (v : Word) (s : State) : Result := opCmd p (0x3CA + 8 * lvl.val) v false s

/-- LCLR (R182). -/
def execLclr (p : Pair) (lvl : Fin 3) (s : State) : Result := opCmd p (0x3CB + 8 * lvl.val) 0 false s

/-- LSTATE_WRITE (R186). -/
def execLstateWrite (p : Pair) (lvl : Fin 3) (v : Word) (s : State) : Result :=
  opCmd p (0x3CC + 8 * lvl.val) v false s

/-- WAIT (R206). -/
def execWait (p : Pair) (v : Word) (s : State) : Result := opCmd p 0x3E1 v false s

/-- WAIT_WAKE (R206). -/
def execWaitWake (p : Pair) (s : State) : Result := onDev s (doWaitWake p.val)

/-- WAIT_TIMEOUT (R206). -/
def execWaitTimeout (p : Pair) (s : State) : Result := onDev s (doWaitTimeout p.val)

end Sys2Proof.Machine
end

