-- ==== Sys2Proof/Machine/Gateway.lean ====
section
/-! DEFINITION. The management gateway: Hank messages (R60 to R67). -/

namespace Sys2Proof.Machine

/-- The little-endian value of `n` bytes of a message from offset `o` (R60). -/
def msgN (l : List Byte) (o n : Nat) : Nat := ofLe ((l.drop o).take n)

/-- One operation of a message (R61). -/
structure HankOp where
  write : Bool
  data : Nat
  addr : Nat
  deriving DecidableEq, Repr

/-- Operation `k` of a message. -/
def hankOp (l : List Byte) (k : Nat) : HankOp :=
  let o := 24 + 16 * k
  { write := msgN l o 1 == 2, data := msgN l (o + 4) 4, addr := msgN l (o + 8) 8 }

/-- The operations of a message. -/
def hankOps (l : List Byte) : List HankOp := (List.range (msgN l 5 1)).map (hankOp l)

/-- An operation is well formed: a known opcode, and zero where R61 shows zero. An unknown opcode is taken as a format
error (DESIGN CHOICE, log entry 60). -/
def opFormat (l : List Byte) (k : Nat) : Bool :=
  let o := 24 + 16 * k
  (msgN l o 1 == 1 || msgN l o 1 == 2) && msgN l (o + 1) 3 == 0 && decide (msgN l (o + 8) 8 < 2 ^ 40) &&
  (msgN l o 1 == 2 || msgN l (o + 4) 4 == 0)

/-- A message is well formed (R61, R62). -/
def hankFormat (l : List Byte) : Bool :=
  let n := msgN l 5 1
  decide (24 ≤ l.length) && msgN l 0 2 == 0x4B48 && msgN l 2 1 == 1 && decide (1 ≤ n) && decide (n ≤ 64) &&
  l.length == 24 + 16 * n + 16 && msgN l 3 1 == 0 && decide (msgN l 4 1 < 16) && msgN l 6 2 == 0 &&
  msgN l 16 8 == 0 && (List.range n).all (opFormat l)

/-- The tag of a message's bytes (R63): the first 16 bytes of the HMAC. -/
def hankTag (key : Nat) (l : List Byte) : List Byte := (hmacSha256 (leBytes 32 key) l).take 16

/-- A reply up to its tag (R61): flags without REPLY, the frame, and a status and data for each operation. -/
def replyBytes (msg : List Byte) (flags frame : Nat) (res : List (HankOp × Nat × Nat)) : List Byte :=
  msg.take 3 ++ leBytes 1 (flags + 1) ++ (msg.drop 4).take 12 ++ leBytes 8 frame ++
  res.flatMap (fun r => leBytes 1 (if r.1.write then 2 else 1) ++ leBytes 1 r.2.1 ++ leBytes 2 0 ++
    leBytes 4 r.2.2 ++ leBytes 8 r.1.addr)

/-- Flags added to a reply already formed. -/
def addFlags (f : Nat) (l : List Byte) : List Byte := l.take 3 ++ leBytes 1 (msgN l 3 1 ||| f) ++ l.drop 4

/-- COMMIT_FRAME of a reply already formed. -/
def putFrame (f : Nat) (l : List Byte) : List Byte := l.take 16 ++ leBytes 8 f ++ l.drop 24

/-- A reply in which nothing was executed: every status 0x05 (R64, R65). -/
def plainReply (msg : List Byte) (flags frame : Nat) : List Byte :=
  replyBytes msg flags frame ((hankOps msg).map (fun o => (o, 5, if o.write then o.data else 0)))

/-- The key of a hue (R68). -/
def keyOf (d : Dev) (h : Nat) : Option Nat := tget (fun _ => none) d.gw.keys h

/-- A reply tagged with the hue's key and sent to the source of the request (R60, R63). -/
def hankSend (to_ : HankFrom) (h : Nat) (reply : List Byte) (d : Dev) : Dev :=
  match keyOf d h with
  | some k => { d with out := { d.out with hank := (to_, reply ++ hankTag k reply) :: d.out.hank } }
  | none => d

/-- The last accepted SEQ of a hue (R64). -/
def lastSeq (d : Dev) (h : Nat) : Word := tget (fun _ => 0) d.gw.last h

/-- The request of a hue that awaits commit (R64). -/
def awaiting (d : Dev) (h : Nat) : Option Waiting := tget (fun _ => none) d.gw.waiting h

/-- The gateway's record changed. -/
def onGw (f : Gw → Gw) (d : Dev) : Dev := { d with gw := f d.gw }

/-- The last accepted SEQ of a hue set. -/
def setLast (h : Nat) (v : Word) (d : Dev) : Dev := onGw (fun g => { g with last := tset (fun _ => 0) g.last h v }) d
/-- The cached reply of a hue set. -/
def setCached (h : Nat) (v : Option (List Byte)) (d : Dev) : Dev :=
  onGw (fun g => { g with cached := tset (fun _ => none) g.cached h v }) d
/-- The request of a hue that awaits commit set. -/
def setWaiting (h : Nat) (v : Option Waiting) (d : Dev) : Dev :=
  onGw (fun g => { g with waiting := tset (fun _ => none) g.waiting h v }) d

/-! ### Validation and execution (R66) -/

/-- The status of one operation, judged before any is executed (R66). -/
def judgeOp (d : Dev) (h : Hue) (o : HankOp) : Status :=
  if o.write then judgeWrite d (.hank h) o.addr o.data
  else if !reaches (.hank h) o.addr then 1
  else match placeOf o.addr with
    | .page b _ => if o.addr % 4 ≠ 0 then 2 else if underTest d b then 1 else 0
    | .bell _ _ => if o.addr % 4 ≠ 0 then 2 else 0
    | _ => 1

/-- A validated write performed: the conditions still hold within the request (R66). -/
def perform32 (i : Initiator) (hk : Option HankTag) (a v : Nat) (x : RD) : RD :=
  match placeOf a with
  | .page b off => pageWrite i hk b off v x
  | .bell h off => onD (bellWrite x.1.state i hk h off v) x
  | _ => x

/-- The operations executed in order: the machine, and each operation's data (R66). -/
def runOps (h : Hue) (hk : Option HankTag) (ops : List HankOp) (x : RD) : RD × List (HankOp × Nat × Nat) :=
  ops.foldl (fun acc o =>
    if o.write then (perform32 (.hank h) hk o.addr o.data acc.1, acc.2 ++ [(o, 0, o.data)])
    else
      let r := read32 (.hank h) o.addr acc.1
      (r.2, acc.2 ++ [(o, 0, r.1)])) (x, [])

/-- Whether a change of the request is on its way to a commit point. -/
def changesOf (d : Dev) (h : Hue) (seq : Word) : Bool :=
  let mine (t : Option HankTag) : Bool := match t with | some t => t.hue == h && t.seq == seq | none => false
  d.commit.held.any (fun c => mine c.hank) || d.commit.forwarded.any (fun c => mine c.2)

/-- A request accepted: refused as a whole, or executed; its reply at once, or after its commit (R64, R66, R67). -/
def hankExecute (src : HankFrom) (h : Hue) (seq : Word) (msg : List Byte) (x0 : RD) : RD :=
  let ops := hankOps msg
  let x := onD (fun d => setCached h.val none (setLast h.val seq d)) x0
  let st := ops.map (fun o => (o, judgeOp x.2 h o))
  if st.any (fun s => s.2 != 0) then
    let d1 := forEach (st.filter (fun s => s.2 != 0)) (fun s d => refuse s.2 (.hank h) s.1.addr d) x.2
    let r := replyBytes msg 2 0 (st.map (fun s => (s.1, if s.2 = 0 then 5 else s.2, if s.1.write then s.1.data else 0)))
    (x.1, hankSend src h.val r (setCached h.val (some r) d1))
  else
    let r := replyBytes msg 0 0 (runOps h none ops x).2
    let y := (runOps h (some ⟨h, seq, r⟩) ops x).1
    if changesOf y.2 h seq then onD (setWaiting h.val (some ⟨src, seq, r, none, false⟩)) y
    else onD (fun d => hankSend src h.val r (setCached h.val (some r) d)) y

/-- An authenticated request handled by its SEQ and the state of its hue (R64, R65). -/
def hankHandle (src : HankFrom) (h : Hue) (msg : List Byte) (x : RD) : RD :=
  let d := x.2
  let seq : Word := BitVec.ofNat 64 (msgN msg 8 8)
  let last := lastSeq d h.val
  let stale (frame : Nat) : RD := (x.1, hankSend src h.val (plainReply msg 8 frame) (inc d gwStaleCount))
  let pending (d : Dev) : RD := (x.1, hankSend src h.val (plainReply msg 0x20 0) d)
  if tget (fun _ => false) d.gw.flooring h.val then stale 0
  else if last < seq then
    if (awaiting d h.val).isSome then pending (inc d gwBusyCount) else hankExecute src h seq msg x
  else if seq = last then
    match awaiting d h.val, tget (fun _ => none) d.gw.cached h.val with
    | some w, c => if w.seq = seq then pending d else
        (match c with | some r => (x.1, hankSend src h.val (addFlags 4 r) d) | none => stale last.toNat)
    | none, some r => (x.1, hankSend src h.val (addFlags 4 r) d)
    | none, none => stale last.toNat
  else stale last.toNat

/-- HANK_REQUEST: a UDP payload at the Hank port of a gateway that runs (R60 to R67). -/
def doHankRequest (src : HankFrom) (msg : List Byte) (x : RD) : RD :=
  let d := x.2
  if !flag d (hdrActive .gw) || src.to_.toNat != rd d gwHankPort then x
  else if !hankFormat msg then (x.1, inc d gwFormatErrCount)
  else
    let h := msgN msg 4 1
    let body := msg.take (msg.length - 16)
    match keyOf d h with
    | none => (x.1, inc d gwAuthFailCount)
    | some k =>
      if msg.drop (msg.length - 16) ≠ hankTag k body then (x.1, inc d gwAuthFailCount)
      else hankHandle src (Fin.ofNat 16 h) msg x

/-! ### Replies after commit (R67, R399) -/

/-- HANK_COMMITTED_REPLY: the full reply of a request whose changes have applied, once an acknowledged seal covers them or the
module is ALONE (R67, R399). -/
def doHankCommittedReply (st : TwinState) (h : Nat) (d : Dev) : Dev :=
  match awaiting d h with
  | some w =>
    (match if w.covered || st == .alone then w.frame else none with
    | some f =>
      let r := addFlags 0x10 (putFrame f.toNat w.reply)
      hankSend w.src h r (doIf (lastSeq d h == w.seq) (setCached h (some r)) (setWaiting h none d))
    | none => d)
  | none => d

/-- The key floor of a hue at its commit point, for frame `f` (R65). -/
def floorApply (h : Nat) (f : Word) (d : Dev) : Dev :=
  let v := max (lastSeq d h).toNat (f.toNat * 125000 % 2 ^ 64)
  onGw (fun g => { g with flooring := tset (fun _ => false) g.flooring h false }) (setCached h none (setLast h (BitVec.ofNat 64 v) d))

/-- A request's changes have applied to frame `f`: its own gateway notes the frame, the twin takes the sequence record
and the reply (R67). -/
def recordApply (f : Word) (t : HankTag) (d : Dev) : Dev :=
  let own := match awaiting d t.hue.val with | some w => w.seq == t.seq | none => false
  if own || decide (t.seq < lastSeq d t.hue.val) then d
  else setCached t.hue.val (some (addFlags 0x10 (putFrame f.toNat t.reply))) (setLast t.hue.val t.seq d)

/-- Requests none of whose changes is still on its way have their frame (R67, R399). -/
def noteCommits (covered : Bool) (f : Word) (d : Dev) : Dev :=
  forEach d.gw.waiting (fun e d => match e.2 with
    | some w =>
      if w.frame.isNone && !changesOf d (Fin.ofNat 16 e.1) w.seq then setWaiting e.1 (some { w with frame := some f, covered := covered }) d
      else d
    | none => d) d

end Sys2Proof.Machine
end

