-- ==== Sys2Proof/Machine/Frame.lean ====
section
/-! DEFINITION. The frame timeline (R23 to R29, R458): the tick with its commit point, the instants inside a frame
period, transmission, and the samples of the TDM ports. -/

namespace Sys2Proof.Machine

/-! ### The changes of a commit point (R398, R458) -/

/-- The order of a kind of change (R458). -/
def changeOrder : ChangeOp → Nat
  | .hueReset _ => 1
  | .ctxWrite _ _ _ => 2
  | .dbEnq h _ _ _ => 3 + h.val
  | .dbConsume h _ _ _ => 3 + h.val
  | .staging _ _ _ | .inval _ | .invalAll => 19
  | .arm _ _ _ _ | .cancel _ _ => 20
  | _ => 22

/-- `a` takes effect before `b`: by kind, then by commit number (R458). -/
def heldBefore? (a b : Held) : Bool :=
  decide (changeOrder a.op < changeOrder b.op) || (changeOrder a.op == changeOrder b.op && decide (a.num ≤ b.num))

/-- A change put into its place. -/
def heldInsert (c : Held) : List Held → List Held
  | [] => [c]
  | h :: r => if heldBefore? c h then c :: h :: r else h :: heldInsert c r

/-- The changes of a commit point in the order of R458. -/
def heldSort (l : List Held) : List Held := l.foldr heldInsert []

/-- Pair `p` may be given skeins: neither off nor quarantined (R83). -/
def pairAvailable (d : Dev) (p : Nat) : Bool := pstate d p != 5 && pstate d p != 0

/-- What the changes of one commit point know of each other. -/
structure Batch where
  ops : List ChangeOp
  /-- no switch was armed before them (R84) -/
  fresh : Bool
  /-- a pass was running before them (R353) -/
  passing : Bool
  /-- the frame to which they apply -/
  frame : Word
  deriving DecidableEq, Repr

/-- A CANCEL of the batch acts in the module of slot `slot` (R84). -/
def Batch.cancels (b : Batch) (slot : Bool) : Bool :=
  b.ops.any (fun o => match o with | .cancel _ _ => appliesHere slot o | _ => false)

/-- Lines that a LOAD of the batch names (R338). -/
def Batch.loads (b : Batch) : List Nat := b.ops.filterMap (fun o => match o with | .load l _ => some (loadLine l.toNat) | _ => none)

/-- An ARM for the peer's module is judged as the peer judges it, for the comparison of both modules' masks; what the peer's pairs
are is not known here, and they are taken as available (R83, R376; DESIGN CHOICE, log entry 173). -/
def peerArm (b : Batch) (f : Word) (bank : List (W32 × Word)) (d : Dev) : Dev :=
  let good := (armApply (fun _ => true) f bank { d with cht := { d.cht with armed := none } }).cht.armed.isSome
  if d.twin.peerSwitch.isSome || b.cancels (!slotB d) || !good then d
  else onTwin (fun t => { t with peerSwitch := some (f, bank) }) d

/-- A CANCEL for the peer's module (R84). -/
def peerCancel (d : Dev) : Dev :=
  match d.twin.peerSwitch with
  | some (f, _) => if (workFrame d).toNat + 1 < f.toNat then onTwin (fun t => { t with peerSwitch := none }) d else d
  | none => d

/-- One control change takes effect (R29, R458). -/
def applyChange (b : Batch) (op : ChangeOp) (x : RD) : RD :=
  let dev (f : Dev → Dev) : RD := onD f x
  match op with
  | .hueReset h => dev (hueResetApply h.val)
  | .ctxWrite h q data => dev (fun d => ctxApply h.val q.toNat data (wr d (hueCtxCmdWrite h.val) 0))
  | .dbEnq h port q words => dev (dbEnqApply h.val port.toNat q.toNat words)
  | .dbConsume h port q n => dev (dbConsumeApply h.val port.toNat q.toNat n)
  | .staging h i data => dev (fun d => stagingApply h.val i.toNat data (wr d (slotCommit h.val) 0))
  | .inval i => dev (chtInvalApply i.toNat)
  | .invalAll => dev (fun d => forEach (d.cht.cache.map CacheEnt.index) chtInvalApply d)
  | .arm s both f bank =>
    dev (fun d0 =>
      let d := if both || s != slotB d0 then peerArm b f bank d0 else d0
      if !appliesHere (slotB d) op then d
      else
        let d1 := armApply (pairAvailable d) f bank d
        if b.cancels (slotB d) && d.cht.armed.isNone && d1.cht.armed.isSome then disarm d1 else d1)
  | .cancel s both =>
    dev (fun d0 =>
      let d := if both || s != slotB d0 then peerCancel d0 else d0
      if appliesHere (slotB d) op then cancelApply b.fresh d else d)
  | .streamEn tx s en => dev (streamEnApply tx s.val en)
  | .mtu net w => dev (fun d => wr d (strmMtu net.val) (bits w.toNat 29 16))
  | .chime a w => dev (fun d => wrw d a w)
  | .ptpStep o => dev (ptpStepCommit o)
  | .nightStart =>
    if b.ops.contains .nightAbort then x
    else dev (fun d => nightStartApply (BitVec.ofNat 64 (rd64 d supNightFrameLo supNightFrameHi)) (rd d supNightLen) (rd d supNightGroups) d)
  | .nightAbort => dev (nightOver true false)
  | .adopt mask => dev (adoptApply mask b.loads)
  | .load l data => dev (loadApply l.toNat data)
  | .supConfig a w => dev (supConfigApply a w)
  | .modelCommit => dev modelCommitApply
  | .wearRecord l i data => dev (fun d => wearRecordApply (lineBusy d) l.toNat i.toNat data d)
  | .passStart mask => if b.ops.contains .passAbort && !b.passing then x else dev (passStartApply b.passing mask)
  | .passAbort => dev passDrop
  | .pairReset p => dev (pairResetApply p.val)
  | .shutdown => shutdownApply x
  | .standby => if b.ops.contains .shutdown then dev (captureErr .bist 0x0100 0) else dev (standbyApply x.1.state)
  | .wake => dev wakeEvent
  | .twinQuiet s hold => quietApply s hold x
  | .twinRelease s => releaseApply s x
  | .twinJoin s => joinApply s x
  | .seqFloor h => dev (floorApply h.val b.frame)
  | .joinFrame => joinFrameApply x
  | .rejoinCold p => dev (pairResetApply p.val)

/-- The changes held that this commit point takes: under a seal those up to its number, else all (R398). -/
def takeHeld (upTo : Option Nat) (d : Dev) : List Held × Dev :=
  let take (c : Held) : Bool := match upTo with | some n => decide (c.num ≤ n) | none => true
  (d.commit.held.filter take,
   { d with commit := { d.commit with held := d.commit.held.filter (fun c => !take c) } })

/-- The changes taken by a commit point take effect, and requests and sequence records with them; `covered` says that a seal
acknowledged, or the state ALONE, covers them (R67, R398, R399, R458). -/
def applyHeld (n : Word) (covered ownerB : Bool) (l0 : List Held) (x : RD) : RD :=
  let l := orderQuiet ownerB (heldSort l0)
  let b : Batch := { ops := l.map Held.op, fresh := x.2.cht.armed.isNone, passing := flag x.2 tagPassActive, frame := n }
  let y := l.foldl (fun x c => applyChange b c.op x) x
  onD (fun d =>
    let d1 := { d with commit := { d.commit with applied := l.foldl (fun m c => max m c.num) d.commit.applied } }
    noteCommits covered n (forEach (l.filterMap Held.hank) (recordApply n) d1)) y

/-- The commit point for frame `n` (R29, R398): the owner applies what it sealed, the partner what it holds of a seal
it holds whole, every other module all it holds; a seal missing or unacknowledged takes the link down. -/
def commitPoint (st : TwinState) (n : Word) (x : RD) : RD :=
  let d := x.2
  let mine := slotB d
  let go (upTo : Option Nat) (covered ownerB : Bool) (x : RD) : RD :=
    let r := takeHeld upTo x.2
    applyHeld n covered ownerB r.1 (x.1, onTwin (fun t => { t with sealApplied := upTo.getD d.commit.count }) r.2)
  match st with
  | .owner =>
    (match d.twin.sealed with
    | some (f, k) =>
      let y := if f = n then go (some k) (d.twin.sealAcked == some n) mine x else x
      if f = n ∧ d.twin.sealAcked = some n then y else linkDown y
    | none => linkDown x)
  | .partner =>
    let held := match d.twin.sealHeld with | some (f, k) => if f = n && sealComplete d k then some k else none | none => none
    (match held with
    | some k => go (some k) true (!mine) x
    | none => linkDown (onD (onTwin (fun t => { t with withhold := some n })) x))
  | _ => go none (st == .alone) mine x

/-! ### The tick (R24, R458) -/

/-- Whether this module computes frames: the CHT runs, and the state is none that waits to join or to start
(R24, R93, R405, R406). -/
def computes (st : TwinState) (d : Dev) : Bool :=
  inFrame d && flag d (hdrActive .cht) && !d.cht.stopped && (isLive st || st == .quiet)

/-- A switch armed in the peer has come to its frame: its bank gives the peer's masks (R83, R376). -/
def peerSwitched (n : Word) (d : Dev) : Dev :=
  match d.twin.peerSwitch with
  | some (f, bank) =>
    let masks : Table Word := (List.range 12).foldl (fun m p => tset (fun _ => 0) m p (nth bank p (0, 0)).2) []
    if f ≤ n then onTwin (fun t => { t with peerSwitch := none, peerMask := masks }) d else d
  | none => d

/-- The link of a disabled TWIN block stops at the tick, and its quiesce ends (R53, R412). -/
def twinStops (x : RD) : RD :=
  if x.2.twin.stopping then
    onD (fun d => quiesceEnd .twin (onTwin (fun t => { t with stopping := false }) d)) (linkDown x)
  else x

/-- What the blocks do at a tick after the control changes (R458), for frame `n`. -/
def blockTick (st : TwinState) (n : Word) (d : Dev) : Dev :=
  let d1 := peerSwitched n (switchPrepare (paired st d) (switchApply d))
  let d2 := forN 12 (fun p d => pairRejoin p (coldInstead st p (latentResolve st p d))) d1
  let d3 := tickQuiesce d2
  let go := computes st d3
  let d4 := { d3 with cht := { d3.cht with computing := if go then some n else none }
                      ptp := { d3.ptp with running := d3.ptp.running || go } }
  let d5 := closeInput (st == .owner || st == .partner) (slotB d4) (ownsTdm st) n.toNat (seqTick d4)
  testQuarantined (tagTick (wearSense (supSense (nightTick (doIf (supRunning d5) readLines d5)))))

/-- A tick up to its commit point: the frame period begins, what was kept for the frame sent is gone, the twin block's and the
start-up's frames are counted, and a module that loses its supply abdicates (R24, R391, R416). -/
def tickBegin (x : RD) : RD :=
  let d := { x.2 with clk := { frame := x.2.clk.frame + 1, cycle := 0, sample := 0 }, ptp := { x.2.ptp with steps := [] } }
  let y := twinTick (x.1, startTick (onTwin (fun t => { t with ownHash := [], peerHash := [], refused := [] }) d))
  if y.2.twin.dying && y.1.state != .quiet then abdicate y else y

/-- A tick after its commit point: a link that stops, the time steps committed a frame before, what the blocks do, and the twin's
messages (R53, R302, R395, R458). -/
def tickEnd (steps : List Int) (x : RD) : RD :=
  let w := onD (ptpStepTick steps) (twinStops x)
  (w.1, twinSends w.1.state w.1.hold (blockTick w.1.state (workFrame w.2) w.2))

/-- FRAME_TICK (R24, R458): the frame period begins with the commit point of the frame before. -/
def doFrameTick (x : RD) : RD := tickEnd x.2.ptp.steps (commitPoint x.1.state x.2.clk.frame (tickBegin x))

/-! ### Inside the frame period (R26) -/

/-- The digest of the input frame (R397). -/
def inputDigest (d : Dev) : Word :=
  BitVec.ofNat 64 (crc64 (rdBytes d (rd d (strmInBase 0) * 256) 20480 ++ leBytes 8 d.twin.sealApplied))

/-- The sense words a port captured in the last period are sent to the twin (R298, R395). -/
def sendCapture (k : Nat) (d : Dev) : Dev :=
  let p := d.clk.frame - 1
  let par := p.toNat % 2
  if (tget (fun _ => none) d.strm.capFrame (par * 12 + k)) = some p then
    sendMsg (.inTdm k p ((List.range (nSamp d)).flatMap (fun i => (List.range 16).map (fun sl =>
      tget (fun _ => 0) d.strm.capture (((par * 12 + k) * 16 + sl) * 16 + i))))) d
  else d

/-- INPUT_READY at frame cycle 4,096 (R76, R86, R288, R359, R397). -/
def doInputReady (x : RD) : RD :=
  let y := onD (fun d0 =>
    let d := atCycle 4096 d0
    let n := workFrame d
    let d1 := doIf (ownsTdm x.1.state) (forN 12 sendCapture) (spDeliver (spPulse 145 d))
    let d2 := doIf (chtServing d1) (fun d => writeRoutes (chtRefetch d)) d1
    let d3 := if d2.cht.computing.isNone then d2 else
      forN 12 (fun p d => onPly p (fun s => if s.rejoin then { s with rejoin := false, cold := false } else s) d)
        (writeDescriptors (fun p => (ply d2 p).rejoin) (fun p => (ply d2 p).cold) (movesStopped (paired x.1.state d2) d2))
    let d4 := supHeat (wearHeat d3) (wearLineRecords d3)
    let g := inputDigest d4
    sendMsg (.inDigest n g) (onTwin (fun t => { t with ownDigest := some (n, g) }) d4)) x
  compareDigests y

/-- FRAME_START at frame cycle 8,192 (R26, R87, R90, R189). -/
def doFrameStart (st : TwinState) (d0 : Dev) : Dev :=
  let d := atCycle 8192 d0
  let d1 := wr d chtDoneStatus 0
  let d2 := if d1.cht.computing.isNone then d1 else forN 12 (fun p d => if actMask d p = 0 then d else evcPulse p d) d1
  migrationLate (paired st d2) d2

/-- The swept words of pair `p`, with the results due by now (R111, R372). -/
def sweepWords (d : Dev) (p : Nat) : List Word :=
  let c := core (settle p d) p
  (List.range 209).map (sweptWord c)

/-- OUTPUT_OPEN at frame cycle 108,032 (R27, R87, R291, R310, R372). -/
def doOutputOpen (d0 : Dev) : Dev :=
  let d := forN 12 (fun p d => onPly p (fun x => { x with outRead := [] }) d) (atCycle 108032 d0)
  let d1 := supLevelRead (checkDone (spDeliver (spPulse 146 d)))
  forwardMemory (sendCompleted (forN 12 (fun p d => sendMsg (.sweep d.clk.frame p (sweepWords d p)) d) d1))

/-- MIGRATION_TRIGGER at frame cycle 108,288 (R88). -/
def doMigrationTrigger (d : Dev) : Dev := migrationTrigger (atCycle 108288 d)

/-! ### Transmission (R27, R291 to R294, R313, R375, R401 to R404) -/

/-- A sample within Q1.31 (R313). -/
def clampSample (x : Int) : W32 := BitVec.ofNat 32 (ofSigned 32 (satSigned 32 x))

/-- The computed samples of output `k` in the output buffer (R291). -/
def computedSamples (d : Dev) (k : Nat) : List W32 :=
  (List.range (nSamp d)).map (fun i => BitVec.ofNat 32 (rdN d (rd d (strmOutBase 0) * 256 + 64 * k + 4 * i) 4))

/-- The pair of output `k` is refused for a lockstep fault (R375). -/
def plyRefused (d : Dev) (e : Nat) : Bool := match ownerPair d (entSkein e) with | some p => plyRefuses d p | none => false

/-- The samples of an output of a skein that this module refuses: concealed, or zero once a lockstep fault has been
concealed for a frame (R27, R375). -/
def refusedSamples (k e : Nat) (d : Dev) : List W32 × Dev :=
  if plyRefused d e && (concGet d k).now then (List.replicate (nSamp d) 0, d) else channelTake k false none d

/-- The sum of the computed sample, the probe, the night tone and the tag signal (R313, R326, R346). -/
def outputSample (d : Dev) (k : Nat) (c : List W32) (i : Nat) : W32 :=
  clampSample (toSigned 32 (nth c i 0).toNat + probeSample d k i + toneTerm d k i)

/-- The output samples of frame `n`, by entry, and the concealment they leave: the last frame of an output is the one it last
sent, with its probe (R27, R313; DEDUCED, log entry 80). The outputs that are refused are noted with their concealment. -/
def outputs (outs : List (Nat × Nat)) (d : Dev) : Table (List W32) × Dev :=
  outs.foldl (fun acc o =>
    if refusedSkein acc.2 (entSkein o.2) then
      let r := refusedSamples o.1 o.2 acc.2
      (tset (fun _ => []) acc.1 o.1 r.1, onTwin (fun t => { t with refused := t.refused ++ [⟨o.1, o.2, r.1⟩] }) r.2)
    else
      let c := computedSamples acc.2 o.1
      let r := channelTake o.1 false (some ((List.range (nSamp acc.2)).map (outputSample acc.2 o.1 c))) acc.2
      (tset (fun _ => []) acc.1 o.1 r.1, r.2)) ([], onTwin (fun t => { t with refused := [] }) d)

/-- The in-service outputs with their entries, as the cache serves them. -/
def liveOuts (d : Dev) : List (Nat × Nat) × Dev :=
  (List.range 192).foldl (fun acc k =>
    let r := entryRead k acc.2
    (if inService r.1 then acc.1 ++ [(k, r.1)] else acc.1, r.2)) ([], d)

/-- A channel of TX stream `t` is refused for the frame (R293). -/
def streamRefused (d : Dev) (outs : List (Nat × Nat)) (t : Nat) : Bool :=
  (List.range (txChans d t)).any (fun c => match txBinders outs t c with
    | k :: _ => (outs.find? (fun o => o.1 == k)).any (fun o => refusedSkein d (entSkein o.2))
    | [] => false)

/-- A packet is withheld on a network (R293, R306). -/
def withhold (net : Nat) (d : Dev) : Dev := raise (.strm (Fin.ofNat 2 net)) 3 (inc d (strmTxWithheld net))

/-- The output hash of a packet's bytes (R402). -/
def packetHash (t : Nat) (rtp : List Byte) : Word := BitVec.ofNat 64 (crc64 (BitVec.ofNat 8 t :: rtp))

/-- An output hash is kept, and sent by OWNER, PARTNER and QUIET (R395, R402). -/
def noteHash (st : TwinState) (n : Word) (port : Bool) (index : Nat) (h : Word) (d : Dev) : Dev :=
  let d1 := onTwin (fun t => { t with ownHash := tset (fun _ => none) t.ownHash (hashKey port index) (some h) }) d
  if st = .alone then d1 else sendMsg (.hash n port index h) d1

/-- TX stream `t` on its legs, as the twin state says (R290 to R293, R401). `agreed` says that the partner may send. In
OWNER and PARTNER a packet with a refused channel is withheld, when both modules refuse it too: R27 conceals the channel only
in a packet that is sent, which is in ALONE (DESIGN CHOICE, log entry 80). -/
def sendStream (st : TwinState) (agreed : Bool) (n : Word) (outs : List (Nat × Nat)) (smp : Nat → List W32) (t : Nat)
    (d : Dev) : Dev :=
  if !flag d (txEn t) then d
  else
    let rtp := txPacket d outs smp t n.toNat
    let refuse := st != .alone && (streamRefused d outs t || (st == .partner && !agreed))
    let d1 := forN 2 (fun net d =>
      if !txLeg d t net || !txActive st d net || !strmRunning d net then d
      else if refuse then withhold net d
      else strmEvent t 3 (inc (sendNet (.media net t n (mediaHead d net t rtp) rtp) d) (strmTxPkts net))) d
    if refuse then d1 else noteHash st n false t (packetHash t rtp) d1

/-- The slot words of a port for a frame, in transmission order: sample by sample, slot by slot, most significant bit
first (R296, R402). -/
def portBytes (d : Dev) (n k : Nat) : List Byte :=
  (List.range (nSamp d)).flatMap (fun j => (List.range 16).flatMap (fun sl =>
    beBytes 4 (tget (fun _ => 0) d.strm.tdmBuf (tdmKey n k sl j)).toNat))

/-- A port carries no refused channel. -/
def portWhole (d : Dev) (outs : List (Nat × Nat)) (k : Nat) : Bool :=
  outs.all (fun o => !(entTdmValid o.2 && entTdmPort o.2 == k && refusedSkein d (entSkein o.2)))

/-- The shadow of frame `n`, if it has come, fills the refused channels (R404). -/
def shadowFill (n : Word) (d : Dev) : Dev :=
  if d.twin.shadowFrame = some n then
    shadowInto n ((List.range (192 * nSamp d)).map (fun i => tget (fun _ => 0) d.twin.shadow i)) d
  else d

/-- The hashes of the peer that came before this module's are compared now (R402, R403). -/
def compareHashes (n : Word) (x : RD) : RD :=
  x.2.twin.peerHash.foldl (fun x e => match e.2 with
    | some h => doHashRx n (e.1 % 2 == 1) (Fin.ofNat 128 (e.1 / 2)) h x
    | none => x) x

/-- A refused pair has one more refused frame (R376). -/
def countRefused (d : Dev) : Dev :=
  forN 12 (fun p d => if actMask d p != 0 && plyRefuses d p then onPly p (fun s => { s with refused := s.refused + 1 }) d else d) d

/-- Frame `n` leaves the module: samples, TDM buffers, packets, hashes and shadow. -/
def transmit (st : TwinState) (n : Word) (d0 : Dev) : Dev :=
  let l := liveOuts d0
  let outs := l.1
  let s := outputs outs (bindConflicts outs l.2)
  let smp (k : Nat) : List W32 := tget (fun _ => []) s.1 k
  let d1 := probeHeard false n.toNat (s.2.twin.refused.map RefusedOut.index) (loadTdm outs smp n.toNat (countRefused s.2))
  let d2 := if st = .alone then d1 else shadowFill n d1
  let agreed := digestsAgree d2 n && d2.twin.withhold != some n
  let d3 := spDeliver (forN 96 (sendStream st agreed n outs smp) d2)
  let d4 := forN 12 (fun k d => if tdmDrives st d k && portWhole d outs k then
    noteHash st n true k (BitVec.ofNat 64 (crc64 (portBytes d n.toNat k))) d else d) d3
  if st = .alone then d4
  else sendMsg (.shadow n ((List.range 192).flatMap (fun k => (List.range (nSamp d4)).map (fun i => nth (smp k) i 0)))) d4

/-- TX_START at frame cycle 109,568: frame n is sent, if it was computed (R93, R291). -/
def doTxStart (x : RD) : RD :=
  let d := atCycle 109568 x.2
  let n := workFrame d
  let y : RD := match d.cht.computing with
    | some _ => compareHashes n (x.1, startDone x.1.state (transmit x.1.state n d))
    | none => (x.1, loadTdm [] (fun _ => []) n.toNat d)
  onD tagAdvance y

/-! ### Samples (R296 to R299, R389) -/

/-- The sense words of sample `i` of a port whose lines this module clocks are captured; a period counts when every
sample was (R297, R298). -/
def capturePort (st : TwinState) (i : Nat) (sdin : List W32) (k : Nat) (d : Dev) : Dev :=
  let par := d.clk.frame.toNat % 2
  let place := par * 12 + k
  let on := ownsTdm st && tdmDrives st d k
  let started := decide (i = 0) || (tget (fun _ => none) d.strm.capFrame place) == some d.clk.frame
  let cap := if on && started then some d.clk.frame else none
  let words := if on then (List.range 16).foldl (fun t sl =>
      tset (fun _ => 0) t ((place * 16 + sl) * 16 + i) (nth sdin (16 * k + sl) 0)) d.strm.capture else d.strm.capture
  { d with strm := { d.strm with capture := words, capFrame := tset (fun _ => none) d.strm.capFrame place cap } }

/-- FSYNC of a port that drives: high for one BCLK period, or for all of slot 0 (R296). -/
def fsyncWidth (d : Dev) (k : Nat) : Nat := if flag d (tdmFsyncSlot k) then 32 else 1

/-- A port that began or ceased to drive its lines raises DRIVE_CHANGE as the TDM frame begins (R308; the instant is a DESIGN
CHOICE, log entry 134). -/
def noteDrives (st : TwinState) (d : Dev) : Dev :=
  let now (k : Nat) : Bool := tdmDrives st d k
  let d1 := forN 12 (fun k x =>
    if now k == tget (fun _ => false) d.strm.driving k then x else raise (.tdm (Fin.ofNat 12 k)) 0 x) d
  { d1 with strm := { d1.strm with driving := (List.range 12).foldl (fun t k => tset (fun _ => false) t k (now k)) [] } }

/-- The words the ports drive in sample `i` of this period: frame n is sent in period n + 3 (R296, R297). -/
def driveTdm (st : TwinState) (i : Nat) (d : Dev) : Dev :=
  let n := d.clk.frame.toNat + 1
  let out := (List.range 12).foldl (fun t k => (List.range 16).foldl (fun t sl =>
    tset (fun _ => 0) t (16 * k + sl) (if tdmDrives st d k then tget (fun _ => 0) d.strm.tdmBuf (tdmKey n k sl i) else 0)) t) []
  let sync := (List.range 12).foldl (fun t k =>
    tset (fun _ => 0) t k (if tdmDrives st d k then fsyncWidth d k else 0)) []
  noteDrives st { d with strm := { d.strm with tdmOut := out, tdmFsync := sync } }

/-- SAMPLE_TICK: sample `i` begins (R296 to R299, R389). -/
def doSampleTick (i : Nat) (sdin : List W32) (x : RD) : RD :=
  if nSamp x.2 ≤ i then x
  else
    let d0 := { x.2 with clk := { x.2.clk with cycle := sampCycles x.2 * i, sample := i } }
    let d1 := forN 12 (fun k d => quiesceEnd (.tdm (Fin.ofNat 12 k)) d) d0
    let d2 := driveTdm x.1.state i (forN 12 (capturePort x.1.state i sdin) d1)
    if x.1.beating then
      ({ x.1 with beatLevel := !x.1.beatLevel },
        sendMsg (.beat i x.1.state (if i = 0 then ptpNs d2 else 0)) d2)
    else (x.1, d2)

/-- FRAME_TIMER_PULSE: timer `t` pulses at the cycle of its OFFSET, if this is one of its frames or samples (R191, R229,
R232). -/
def doFrameTimerPulse (t : Nat) (d : Dev) : Dev :=
  if timerDue d t then evcPulse (480 + t) (spDeliver (spPulse t (timerNote t (atCycle (timerCycle d t) d)))) else d

/-- HEARTBEAT_TEST happens at the middle of a sample (R390). -/
def doHeartbeat (lines : PeerLines) (x : RD) : RD :=
  doHeartbeatTest lines (onD (fun d => atCycle (sampCycles d * d.clk.sample + sampCycles d / 2) d) x)

end Sys2Proof.Machine
end

