-- ==== Sys2Proof/Machine/ExecEvc.lean ====
section
/-! DEFINITION. The commands of the event controller (R187 to R212) and the frame timers (R232). -/

namespace Sys2Proof.Machine

/-- EVC_RAW_CHANGE (R191). -/
def execEvcRawChange (src : Fin 1024) (s : State) : Result := onDev s (doEvcRawChange src.val)

/-- EVC_PULSE_CAPTURE (R191). -/
def execEvcPulseCapture (src : Fin 1024) (s : State) : Result := onDev s (doEvcPulseCapture src.val)

/-- EVC_PRESENT (R195). -/
def execEvcPresent (s : State) : Result := onDev s doEvcPresent

/-- EVC_ACK_SAMPLE (R196). -/
def execEvcAckSample (p : Pair) (s : State) : Result := onDev s (doEvcAckSample p.val)

/-- EVC_HOLDOFF_EXPIRE (R198). -/
def execEvcHoldoffExpire (g : Fin 32) (s : State) : Result := onDev s (doEvcHoldoffExpire g.val)

/-- EVC_COMPLETE (R199). -/
def execEvcComplete (ini : Initiator) (p : Pair) (v : W32) (s : State) : Result :=
  regCmd ini (0x20040 + 4 * p.val) v.toNat s

/-- EVC_SWSET (R192). -/
def execEvcSwset (ini : Initiator) (src : Fin 1024) (s : State) : Result :=
  regCmd ini (evcSwset (src.val / 32)).off (2 ^ (src.val % 32)) s

/-- EVC_PEND_CLEAR (R192). -/
def execEvcPendClear (ini : Initiator) (src : Fin 1024) (s : State) : Result :=
  regCmd ini (evcPend (src.val / 32)).off (2 ^ (src.val % 32)) s

/-- STILL_FIRE (R207). -/
def execStillFire (s : State) : Result := onDev s doStillFire

/-- SLEEP_REQ (R209). -/
def execSleepReq (ini : Initiator) (s : State) : Result := regCmd ini evcSleepPend.off 1 s

/-- SLEEP_CANCEL (R209). -/
def execSleepCancel (ini : Initiator) (s : State) : Result := regCmd ini evcSleepPend.off 2 s

/-- SLEEP_ENTER (R209). -/
def execSleepEnter (s : State) : Result := onDev s doSleepEnter

/-- AON_WAKE (R210). -/
def execAonWake (entry : Fin 32) (s : State) : Result := onDev s (doAonWake entry.val)

/-- FRAME_TIMER_PULSE (R232). -/
def execFrameTimerPulse (t : Fin 16) (s : State) : Result := onDev s (doFrameTimerPulse t.val)

end Sys2Proof.Machine
end

