-- ==== Sys2Proof/Machine/CoreExt.lean ====
section
/-! DEFINITION. How EXT operations of a core complete (R172 to R181, R246 to R248): loads, the write buffer,
maintenance over ranges, FENCE, bobbin operations and the fabric timeout. -/

namespace Sys2Proof.Machine

/-- Pair `p` as a number below 12. -/
def pairOf (p : Nat) : Pair := Fin.ofNat 12 p

/-- An EXT access failed: DATA_ERROR at the bundle `pc` (R178). -/
def extFault (p reason pc : Nat) (d : Dev) : Dev := faultOpen p 3 (some reason) none pc d

/-- The reason of a failed access: 0x21 for uncorrectable ECC, 0x20 for an error response (R178). -/
def errReason (err : MemErr) : Nat := if err = .ecc then 0x21 else 0x20

/-! ### Loads -/

/-- An address in the channel table, which the CHT serves (R74). -/
def inTable (d : Dev) (a : Nat) : Bool := decide (chtBase d ≤ a) && decide (a < chtBase d + 0x10000)

/-- A load of `n` bytes of an aligned address goes to the data cache (R173, R174). -/
def cachedLoad (a n attr : Nat) : Bool := attr != 0 && a % n == 0

/-- A load that the CHT serves: an uncached one of its table (R74). -/
def tableLoad (d : Dev) (a n attr : Nat) : Bool := inTable d a && !cachedLoad a n attr && a % n == 0

/-- The line fill a load needs would write back a dirty line, and the write buffer is full (R174, R175). -/
def fillStalls (d : Dev) (c : Core) (a n attr : Nat) : Bool :=
  decide (8 ≤ c.wb.length) && cachedLoad a n attr && (c.dFind a).isNone &&
  (match tget (fun _ => none) c.dcache (c.dVictim a (freshVal d)) with
    | some l => l.dirty
    | none => false)

/-- The line of a cached load is still being fetched for a store that missed (R174). -/
def linePends (c : Core) (a n attr : Nat) : Bool :=
  cachedLoad a n attr && c.ext.any (fun o => o.work == .fill (lineOf a))

/-- A load waits: its address is held in an unsent write-buffer entry, its fill waits for room (R175), or its line is on
its way. -/
def loadWaits (d : Dev) (c : Core) (a n attr : Nat) : Bool :=
  c.wb.any (fun e => e.data.any (fun x => decide (a ≤ x.1) && decide (x.1 < a + n))) || fillStalls d c a n attr ||
    linePends c a n attr

/-- The value of a load from its bytes (R172). -/
def loadValue (n : Nat) (signed : Bool) (v : Nat) : Word :=
  if n = 4 && signed then (BitVec.ofNat 32 v).signExtend 64 else BitVec.ofNat 64 (v % 2 ^ (8 * n))

/-- A table entry for a core's load: a copy just fetched on its miss, else the entry as it is served (R74, R76, R78). -/
def tableEntry (fetched : Bool) (x : Nat) (d : Dev) : Nat × Dev :=
  match fetched, cacheGet d x with
  | true, some c => (served d c, d)
  | _, _ => entryRead x d

/-- The first load that may complete: not waiting, and torn as `torn` says (R78, R175). -/
def nextLoad (d : Dev) (p : Nat) (torn : Bool) : Option (ExtOp × Nat × Nat × Bool × Nat) :=
  let c := core d p
  let tries := tget (fun _ => 0) d.cht.tornTries p
  c.ext.findSome? (fun o => match o.work with
    | .load a n s attr =>
      if !loadWaits d c a n attr && (tableLoad d a n attr && decide (0 < tries)) == torn then some (o, a, n, s, attr) else none
    | _ => none)

/-- An operation that waits for a line of memory: the fetch for a write-back store that missed (R174). -/
def ExtOp.fillOf (o : ExtOp) : Option Nat := match o.work with | .fill a => some a | _ => none

/-- The line fetch that is the oldest read outstanding, if one is: no load that waits for nothing is older (R178). -/
def nextFill (d : Dev) (p : Nat) : Option ExtOp :=
  match (core d p).ext.find? (fun o => o.fillOf.isSome ||
      (match nextLoad d p false with | some (x, _) => x == o | none => false)) with
  | some o => if o.fillOf.isSome then some o else none
  | none => none

/-- The line fetch of a store failed: the line is gone, and the store has written nothing (R178). -/
def fillFails (p reason : Nat) (o : ExtOp) (d : Dev) : Dev :=
  extFault p reason o.pc (onCore p (fun c =>
    let c1 := c.extDrop o
    match o.fillOf with
    | some a => (match c1.dFind a with | some (k, _) => c1.dRenew k none | none => c1)
    | none => c1) d)

/-- The data of an uncached load from the channel table, or nothing while the entry is torn (R76, R78). -/
def tableServe (p : Nat) (o : ExtOp) (a n : Nat) (s : Bool) (d : Dev) : Dev :=
  let x := (a - chtBase d) / 128
  let miss := chtServing d && (cacheGet d x).isNone
  let m := if miss then coreMiss p x d else (true, setTries p 0 d)
  if m.1 then
    let r := tableEntry miss x m.2
    onCore p (Core.extLand o (loadValue n s (r.1 / 2 ^ (8 * ((a - chtBase d) % 128)) % 2 ^ (8 * n)))) r.2
  else m.2

/-- A load's data arrives (R172 to R175, R178). -/
def loadServe (p : Nat) (o : ExtOp) (a n : Nat) (s : Bool) (attr : Nat) (x : RD) : RD :=
  let d := x.2
  if tableLoad d a n attr then (x.1, tableServe p o a n s d)
  else if cachedLoad a n attr then
    let d1 := if ((core d p).dFind a).isSome then d else fillLine p o.pc a d
    let v := match (core d1 p).dFind a with
      | some (_, l) => ofLe ((l.data.drop (a % 64)).take n)
      | none => 0
    (x.1, onCore p (Core.extLand o (loadValue n s v)) d1)
  else
    let r := busRead (.core (pairOf p)) a n x
    if r.2.1 then onD (fun d => extFault p 0x20 o.pc (onCore p (Core.extLand o 0) d)) r.2.2
    else onD (onCore p (Core.extLand o (loadValue n s r.1.toNat))) r.2.2

/-- The bytes of a cached line with an ECC upset that a load of it meets, false for a corrected one (R370). -/
def lineUpsets (c : Core) (a n attr : Nat) : List Bool :=
  if cachedLoad a n attr then
    (match c.dFind a with
     | some (k, _) => c.upsetsIn (0x80000 + 64 * k + a % 64) n
     | none => [])
  else []

/-- EXT_LOAD_RESPONSE: the oldest load that waits for nothing completes; a failed one delivers zero (R178). A line fetch
that is older is answered first. A load from a line with an ECC upset counts its correction, or fails with reason 0x21
(R370). -/
def doExtLoadResponse (p : Nat) (err : MemErr) (x : RD) : RD :=
  match nextFill x.2 p with
  | some f => onD (fun d =>
      if err = .none && !(f.fillOf.any (fun a => fenced d a 64)) then onCore p (Core.extDrop f) d
      else fillFails p (errReason err) f d) x
  | none =>
    match nextLoad x.2 p false with
    | none => x
    | some (o, a, n, s, attr) =>
      let ups := lineUpsets (core x.2 p) a n attr
      if err = .none ∧ !ups.contains true ∧ !fenced x.2 a n then
        loadServe p o a n s attr (onD (eccCorrected p ups.length) x)
      else onD (fun d => extFault p (if err = .none ∧ ups.contains true then 0x21 else errReason err) o.pc (onCore p (Core.extLand o 0) d)) x

/-- TORN_RETRY: one retry of a torn core miss (R78). -/
def doTornRetry (p : Nat) (d : Dev) : Dev :=
  match nextLoad d p true with
  | none => d
  | some (o, a, n, s, _) => tableServe p o a n s d

/-! ### Write buffer and FENCE -/

/-- A write failed: its fault is entered now, or after the FENCE that waits for it (R178); of several errors met before
the FENCE completes the first is entered (DESIGN CHOICE, log entry 158). -/
def writeFault (p reason pc : Nat) (d : Dev) : Dev :=
  let c := core d p
  if c.fence then onCore p (fun c => { c with fenceErr := some (c.fenceErr.getD (reason, pc)) }) d
  else extFault p reason pc d

/-- Address of the first byte of a write-buffer entry that is not uncached, and how many bytes its burst covers. -/
def burstSpan (e : WbEnt) : Nat × Nat :=
  let lo := (e.data.map Prod.fst).foldl min (lineOf e.addr + 63)
  let hi := (e.data.map Prod.fst).foldl max lo
  (lo, hi + 1 - lo)

/-- A write-through or write-back entry reaches memory as one burst, or is refused at another block's table
(R175, R241, R332). -/
def burst (e : WbEnt) (d : Dev) : Dev × Bool :=
  let s := burstSpan e
  match fenced d s.1 s.2, guardOf d s.1 s.2 with
  | true, _ => (d, true)
  | false, some b => (countGuard b d, true)
  | false, none => (e.data.foldl (fun d c => wrB d c.1 c.2) d, false)

/-- The first entry of the write buffer is sent and answered (R175, R178). -/
def doWriteBufferSend (p : Nat) (err : MemErr) (x : RD) : RD :=
  match (core x.2 p).wb with
  | [] => x
  | e :: rest =>
    let d := onCore p (fun c => { c with wb := rest }) x.2
    if err ≠ .none ∨ e.bad then (x.1, writeFault p (if err = .none then 0x21 else errReason err) e.pc d)
    else if e.uncached then
      let r := busWrite (.core (pairOf p)) none e.addr e.data.length (BitVec.ofNat 64 (ofLe (e.data.map Prod.snd))) (x.1, d)
      if r.2 then onD (writeFault p 0x20 e.pc) r.1 else r.1
    else
      let r := burst e d
      (x.1, if r.2 then writeFault p 0x20 e.pc r.1 else r.1)

/-- An operation that a FENCE waits for: a maintenance operation over a range (R176). -/
def ExtOp.isRange (o : ExtOp) : Bool :=
  match o.work with
  | .range _ _ _ _ | .irange _ _ | .ifill _ _ => true
  | _ => false

/-- FENCE_COMPLETE: every write before the FENCE is answered; an error met by them is entered now (R176, R178). -/
def doFenceComplete (p : Nat) (d : Dev) : Dev :=
  let c := core d p
  if c.fence && c.wb.isEmpty && !c.ext.any ExtOp.isRange then
    let d1 := onCore p (fun c => { c with fence := false, fenceErr := none }) d
    match c.fenceErr with
    | some (r, pc) => extFault p r pc d1
    | none => d1
  else d

/-! ### Maintenance over a range -/

/-- A cached line that a range operation affects, and the operation it receives: a line only partly inside a DINV_R
range is cleaned and invalidated (R177); a clean affects dirty lines. A line that holds both ends of a range is affected,
also where REND is not above the address (DESIGN CHOICE, log entry 157). -/
def rangeHit (kind lo hi : Nat) (l : DLine) : Option Nat :=
  if l.addr + 64 ≤ lo ∨ hi ≤ l.addr then none
  else if kind = 0 then (if l.dirty then some 0 else none)
  else if kind = 1 ∧ (l.addr < lo ∨ hi < l.addr + 64) then some 2
  else some kind

/-- A range operation does what it can: a write-back waits for room in the write buffer (R175). The cache, the lines
affected, and whether lines are left. -/
def rangeRun (pc kind lo hi : Nat) (c : Core) : Core × Nat × Bool :=
  c.dcache.foldl (fun (acc : Core × Nat × Bool) (e : Nat × Option DLine) =>
    match e.2 with
    | none => acc
    | some l => match rangeHit kind lo hi l with
      | none => acc
      | some k =>
        if k ≠ 1 && l.dirty && decide (8 ≤ acc.1.wb.length) then (acc.1, acc.2.1, true)
        else (acc.1.lineOp pc k e.1 l, acc.2.1 + 1, acc.2.2)) (c, 0, false)

/-- An IFILL: the line is fetched into the way that FILL_WAY named at the trigger, and no other way keeps it (R181); a
failed fetch delivers zero and raises DATA_ERROR (R178). -/
def ifillRun (p : Nat) (o : ExtOp) (a way : Nat) (err : MemErr) (d : Dev) : Dev :=
  if err = .none ∧ (inRam a || inRom a) ∧ !fenced d (lineOf a) 64 then
    let b := rdN d (lineOf a) 64
    onCore p (fun c => ((c.iDrop (fun t => t == lineOf a)).1.iPut way a (some (lineOf a, b))).extLand o 1) d
  else extFault p (errReason err) o.pc (onCore p (Core.extLand o 0) d)

/-- RANGE_OP_DONE: the oldest range operation has covered its lines and lands their number, or, with the write buffer
full, has covered some of them (R172, R175, R177, R181). -/
def doRangeOpDone (p : Nat) (err : MemErr) (d : Dev) : Dev :=
  match (core d p).ext.find? ExtOp.isRange with
  | none => d
  | some o =>
    match o.work with
    | .range kind lo hi n =>
      countWriteBacks p (onCore p (fun c =>
        let r := rangeRun o.pc kind lo hi c
        if r.2.2 then
          { r.1 with ext := r.1.ext.map (fun x => if x = o then { o with work := .range kind lo hi (n + r.2.1) } else x) }
        else r.1.extLand o (BitVec.ofNat 64 (n + r.2.1))) d)
    | .irange lo hi =>
      onCore p (fun c =>
        let r := c.iDrop (fun t => decide (lo < t + 64) && decide (t < hi))
        r.1.extLand o (BitVec.ofNat 64 r.2)) d
    | .ifill a way => ifillRun p o a way err d
    | _ => d

/-! ### Bobbin operations -/

/-- The BD ports updated from an entry (R246). -/
def Core.setBd (l : List Byte) (c : Core) : Core :=
  (List.range (l.length / 8)).foldl (fun c i => c.put (0x440 + i) (BitVec.ofNat 64 (ofLe ((l.drop (8 * i)).take 8)))) c

/-- BOBBIN_OP_LAND: the oldest bobbin operation takes effect and lands (R246 to R248). -/
def doBobbinOpLand (p : Nat) (err : MemErr) (d : Dev) : Dev :=
  let hue := rd d (plyCoreHue p)
  match (core d p).ext.findSome? (fun o => match o.work with | .bobbin k q e run => some (o, k, q, e, run) | _ => none) with
  | none => d
  | some (o, k, q, entry, run) =>
    let land (code : Nat) (bd : List Byte) (d : Dev) : Dev :=
      onCore p (fun c => (c.setBd bd).extLand o (bobStatus code (shownOcc d code q))) d
    match k with
    | .enq => let r := bobEnq run hue true q entry err d; land r.1 [] r.2
    | .deq => let r := bobDeq run hue q false err d; land r.1 r.2.1 r.2.2
    | .peek => let r := bobDeq run hue q true err d; land r.1 r.2.1 r.2.2
    | .occ => let d1 := touchCtx q d; land (bobCode run d1 hue true .occ q) [] d1

/-- An operation that the fabric timeout can end: a load that the core has sent, a line fetch, an IFILL or a bobbin
operation; a load that waits in the core has asked for nothing yet (R175, R178). -/
def ExtOp.timed (d : Dev) (c : Core) (o : ExtOp) : Bool :=
  match o.work with
  | .load a n _ attr => !loadWaits d c a n attr
  | .bobbin _ _ _ _ | .ifill _ _ | .fill _ => true
  | _ => false

/-- EXT_RESPONSE_TIMEOUT: the oldest such operation, else the oldest buffered write, has no response (R178).
A load delivers zero; a bobbin operation takes effect nowhere, and the status word it leaves is open (log entry 110). -/
def doExtResponseTimeout (p : Nat) (d : Dev) : Dev :=
  let c := core d p
  match c.ext.find? (ExtOp.timed d c), c.wb with
  | some o, _ =>
    (match o.work with
    | .bobbin _ _ _ _ => extFault p 0x22 o.pc (freshNext (onCore p (Core.extLand o (freshVal d)) d))
    | .fill _ => fillFails p 0x22 o d
    | .load a n _ attr => extFault p 0x22 o.pc (onCore p (Core.extLand o 0) (doIf (tableLoad d a n attr) (setTries p 0) d))
    | _ => extFault p 0x22 o.pc (onCore p (Core.extLand o 0) d))
  | none, e :: rest => writeFault p 0x22 e.pc (onCore p (fun c => { c with wb := rest }) d)
  | none, [] => d

end Sys2Proof.Machine
end

