-- ==== Sys2Proof/Machine/ExecExt.lean ====
section
/-! DEFINITION. The commands of the shared-memory port, the caches and the bobbin ports of a core (R172 to R181, R246 to R248). -/

namespace Sys2Proof.Machine

/-- EXT_LD32U (R172). -/
def execExtLd32u (p : Pair) (a : Word) (s : State) : Result := opCmd p 0x410 a false s

/-- EXT_LD32S (R172). -/
def execExtLd32s (p : Pair) (a : Word) (s : State) : Result := opCmd p 0x411 a false s

/-- EXT_LD64 (R172). -/
def execExtLd64 (p : Pair) (a : Word) (s : State) : Result := opCmd p 0x412 a false s

/-- EXT_ST32 (R172). -/
def execExtSt32 (p : Pair) (a : Word) (s : State) : Result := opCmd p 0x413 a false s

/-- EXT_ST64 (R172). -/
def execExtSt64 (p : Pair) (a : Word) (s : State) : Result := opCmd p 0x414 a false s

/-- EXT_LOAD_RESPONSE (R178). -/
def execExtLoadResponse (p : Pair) (err : MemErr) (s : State) : Result := onBoth s (doExtLoadResponse p.val err)

/-- TORN_RETRY (R78). -/
def execTornRetry (p : Pair) (s : State) : Result := onDev s (doTornRetry p.val)

/-- WRITE_BUFFER_SEND (R175). -/
def execWriteBufferSend (p : Pair) (err : MemErr) (s : State) : Result := onBoth s (doWriteBufferSend p.val err)

/-- DCLEAN (R172). -/
def execDclean (p : Pair) (a : Word) (s : State) : Result := opCmd p 0x418 a false s

/-- DINV (R172). -/
def execDinv (p : Pair) (a : Word) (s : State) : Result := opCmd p 0x419 a false s

/-- DCLEANINV (R172). -/
def execDcleaninv (p : Pair) (a : Word) (s : State) : Result := opCmd p 0x41a a false s

/-- DCLEAN_R (R172). -/
def execDcleanR (p : Pair) (a : Word) (s : State) : Result := opCmd p 0x41b a false s

/-- DINV_R (R177). -/
def execDinvR (p : Pair) (a : Word) (s : State) : Result := opCmd p 0x41c a false s

/-- DCLEANINV_R (R172). -/
def execDcleaninvR (p : Pair) (a : Word) (s : State) : Result := opCmd p 0x41d a false s

/-- DCLEAN_ALL (R172). -/
def execDcleanAll (p : Pair) (s : State) : Result := opCmd p 0x41E 0 false s

/-- DCLEANINV_ALL (R172). -/
def execDcleaninvAll (p : Pair) (s : State) : Result := opCmd p 0x41F 0 false s

/-- IINV (R181). -/
def execIinv (p : Pair) (a : Word) (s : State) : Result := opCmd p 0x420 a false s

/-- IINV_R (R181). -/
def execIinvR (p : Pair) (a : Word) (s : State) : Result := opCmd p 0x421 a false s

/-- IINV_ALL (R181). -/
def execIinvAll (p : Pair) (s : State) : Result := opCmd p 0x422 0 false s

/-- IFILL (R181). -/
def execIfill (p : Pair) (a : Word) (s : State) : Result := opCmd p 0x423 a false s

/-- RANGE_OP_DONE (R172). -/
def execRangeOpDone (r : RangeEnd) (s : State) : Result := onDev s (doRangeOpDone r.p.val r.err)

/-- FENCE (R176). -/
def execFence (p : Pair) (s : State) : Result := opCmd p 0x428 0 false s

/-- FENCE_COMPLETE (R176). -/
def execFenceComplete (p : Pair) (s : State) : Result := onDev s (doFenceComplete p.val)

/-- ICACHE_MISS_FILL (R180). -/
def execIcacheMissFill (p : Pair) (err : MemErr) (s : State) : Result := onDev s (doIcacheMissFill p.val err)

/-- BOBBIN_ENQ (R248). -/
def execBobbinEnq (p : Pair) (q : Word) (s : State) : Result := opCmd p 0x450 q false s

/-- BOBBIN_DEQ (R248). -/
def execBobbinDeq (p : Pair) (q : Word) (s : State) : Result := opCmd p 0x451 q false s

/-- BOBBIN_PEEK (R246). -/
def execBobbinPeek (p : Pair) (q : Word) (s : State) : Result := opCmd p 0x452 q false s

/-- BOBBIN_OCC (R246). -/
def execBobbinOcc (p : Pair) (q : Word) (s : State) : Result := opCmd p 0x453 q false s

/-- BOBBIN_OP_LAND (R247). -/
def execBobbinOpLand (p : Pair) (err : MemErr) (s : State) : Result := onDev s (doBobbinOpLand p.val err)

/-- EXT_RESPONSE_TIMEOUT (R178). -/
def execExtResponseTimeout (p : Pair) (s : State) : Result := onDev s (doExtResponseTimeout p.val)

end Sys2Proof.Machine
end

