-- ==== Sys2Proof/Machine/ExecFpu.lean ====
section
/-! DEFINITION. The commands of the FPU (R153 to R158). -/

namespace Sys2Proof.Machine

/-- FADD (R153). -/
def execFadd (p : Pair) (dbl : Bool) (b : Word) (s : State) : Result := opCmd p (fpuPort 0x08 dbl) b false s

/-- FSUB (R153). -/
def execFsub (p : Pair) (dbl : Bool) (b : Word) (s : State) : Result := opCmd p (fpuPort 0x09 dbl) b false s

/-- FMUL (R153). -/
def execFmul (p : Pair) (dbl : Bool) (b : Word) (s : State) : Result := opCmd p (fpuPort 0x0a dbl) b false s

/-- FMA (R153). -/
def execFma (p : Pair) (dbl : Bool) (b : Word) (s : State) : Result := opCmd p (fpuPort 0x0b dbl) b false s

/-- FMS (R153). -/
def execFms (p : Pair) (dbl : Bool) (b : Word) (s : State) : Result := opCmd p (fpuPort 0x0c dbl) b false s

/-- FNMA (R153). -/
def execFnma (p : Pair) (dbl : Bool) (b : Word) (s : State) : Result := opCmd p (fpuPort 0x0d dbl) b false s

/-- FMIN (R155). -/
def execFmin (p : Pair) (dbl : Bool) (b : Word) (s : State) : Result := opCmd p (fpuPort 0x0e dbl) b false s

/-- FMAX (R155). -/
def execFmax (p : Pair) (dbl : Bool) (b : Word) (s : State) : Result := opCmd p (fpuPort 0x0f dbl) b false s

/-- FCMPEQ (R155). -/
def execFcmpeq (p : Pair) (dbl : Bool) (b : Word) (s : State) : Result := opCmd p (fpuPort 0x10 dbl) b false s

/-- FCMPLT (R155). -/
def execFcmplt (p : Pair) (dbl : Bool) (b : Word) (s : State) : Result := opCmd p (fpuPort 0x11 dbl) b false s

/-- FCMPLE (R155). -/
def execFcmple (p : Pair) (dbl : Bool) (b : Word) (s : State) : Result := opCmd p (fpuPort 0x12 dbl) b false s

/-- FCMPUN (R155). -/
def execFcmpun (p : Pair) (dbl : Bool) (b : Word) (s : State) : Result := opCmd p (fpuPort 0x13 dbl) b false s

/-- FDIV (R153). -/
def execFdiv (p : Pair) (dbl : Bool) (b : Word) (s : State) : Result := opCmd p (fpuPort 0x14 dbl) b false s

/-- FSQRT (R153). -/
def execFsqrt (p : Pair) (dbl : Bool) (b : Word) (s : State) : Result := opCmd p (fpuPort 0x15 dbl) b false s

/-- FPU_ITER_LAND (R153). -/
def execFpuIterLand (p : Pair) (s : State) : Result := onDev s (doFpuIterLand p.val)

/-- FCVT_D_S (R153). -/
def execFcvtDS (p : Pair) (b : Word) (s : State) : Result := opCmd p 0x368 b false s

/-- FCVT_S_D (R158). -/
def execFcvtSD (p : Pair) (b : Word) (s : State) : Result := opCmd p 0x369 b false s

/-- FCVT_S_W (R153). -/
def execFcvtSW (p : Pair) (b : Word) (s : State) : Result := opCmd p 0x36a b false s

/-- FCVT_D_W (R153). -/
def execFcvtDW (p : Pair) (b : Word) (s : State) : Result := opCmd p 0x36b b false s

/-- FCVT_D_L (R153). -/
def execFcvtDL (p : Pair) (b : Word) (s : State) : Result := opCmd p 0x36c b false s

/-- FCVT_W_S (R158). -/
def execFcvtWS (p : Pair) (b : Word) (s : State) : Result := opCmd p 0x36d b false s

/-- FCVT_W_D (R158). -/
def execFcvtWD (p : Pair) (b : Word) (s : State) : Result := opCmd p 0x36e b false s

/-- FCVT_L_D (R158). -/
def execFcvtLD (p : Pair) (b : Word) (s : State) : Result := opCmd p 0x36f b false s

/-- FCVT_S_Q (R158). -/
def execFcvtSQ (p : Pair) (b : Word) (s : State) : Result := opCmd p 0x370 b false s

/-- FCVT_D_Q (R153). -/
def execFcvtDQ (p : Pair) (b : Word) (s : State) : Result := opCmd p 0x371 b false s

/-- FCVT_Q_S (R158). -/
def execFcvtQS (p : Pair) (b : Word) (s : State) : Result := opCmd p 0x372 b false s

/-- FCVT_Q_D (R158). -/
def execFcvtQD (p : Pair) (b : Word) (s : State) : Result := opCmd p 0x373 b false s

/-- FSTAT_WRITE (R156). -/
def execFstatWrite (p : Pair) (v : Word) (s : State) : Result := opCmd p 0xE1 v false s

end Sys2Proof.Machine
end

