-- ==== Sys2Proof/Machine/ExecFrame.lean ====
section
/-! DEFINITION. The commands of the frame timeline (R26, R27, R458): every effect is in Frame, Stream and Twin. -/

namespace Sys2Proof.Machine

/-- FRAME_TICK (R458). -/
def execFrameTick (s : State) : Result := onBoth s doFrameTick

/-- INPUT_READY (R288). -/
def execInputReady (s : State) : Result := onBoth s doInputReady

/-- FRAME_START (R26). -/
def execFrameStart (s : State) : Result := onDev s (doFrameStart s.role.state)

/-- OUTPUT_OPEN (R291). -/
def execOutputOpen (s : State) : Result := onDev s doOutputOpen

/-- MIGRATION_TRIGGER (R88). -/
def execMigrationTrigger (s : State) : Result := onDev s doMigrationTrigger

/-- TX_START (R293). -/
def execTxStart (s : State) : Result := onBoth s doTxStart

/-- SEAL (R398). -/
def execSeal (s : State) : Result := onDev s (doSeal s.role.state)

/-- RX_CUTOFF (R285). -/
def execRxCutoff (s : State) : Result := onDev s doRxCutoff

/-- SAMPLE_TICK (R389). -/
def execSampleTick (sample : Fin 12) (sdin : List W32) (s : State) : Result :=
  onBoth s (doSampleTick sample.val sdin)

/-- HEARTBEAT_TEST (R390). -/
def execHeartbeatTest (lines : PeerLines) (s : State) : Result := onBoth s (doHeartbeat lines)

end Sys2Proof.Machine
end

