-- ==== Sys2Proof/Machine/ExecLsu.lean ====
section
/-! DEFINITION. The commands of the local memory ports (R166 to R171). -/

namespace Sys2Proof.Machine

/-- LSU_LD8U (R166). -/
def execLsuLd8u (p : Pair) (u : Fin 2) (v : Word) (s : State) : Result := opCmd p (lsuPort u 0x10) v false s

/-- LSU_LD8S (R166). -/
def execLsuLd8s (p : Pair) (u : Fin 2) (v : Word) (s : State) : Result := opCmd p (lsuPort u 0x11) v false s

/-- LSU_LD16U (R166). -/
def execLsuLd16u (p : Pair) (u : Fin 2) (v : Word) (s : State) : Result := opCmd p (lsuPort u 0x12) v false s

/-- LSU_LD16S (R166). -/
def execLsuLd16s (p : Pair) (u : Fin 2) (v : Word) (s : State) : Result := opCmd p (lsuPort u 0x13) v false s

/-- LSU_LD32U (R166). -/
def execLsuLd32u (p : Pair) (u : Fin 2) (v : Word) (s : State) : Result := opCmd p (lsuPort u 0x14) v false s

/-- LSU_LD32S (R166). -/
def execLsuLd32s (p : Pair) (u : Fin 2) (v : Word) (s : State) : Result := opCmd p (lsuPort u 0x15) v false s

/-- LSU_LD64 (R166). -/
def execLsuLd64 (p : Pair) (u : Fin 2) (v : Word) (s : State) : Result := opCmd p (lsuPort u 0x16) v false s

/-- LSU_LD128 (R166). -/
def execLsuLd128 (p : Pair) (u : Fin 2) (v : Word) (s : State) : Result := opCmd p (lsuPort u 0x17) v false s

/-- LSU_LD256 (R166). -/
def execLsuLd256 (p : Pair) (u : Fin 2) (v : Word) (s : State) : Result := opCmd p (lsuPort u 0x18) v false s

/-- LDQA (R169). -/
def execLdqa (p : Pair) (u : Fin 2) (v : Word) (s : State) : Result := opCmd p (lsuPort u 0x19) v false s

/-- LSU_ST8 (R166). -/
def execLsuSt8 (p : Pair) (u : Fin 2) (v : Word) (s : State) : Result := opCmd p (lsuPort u 0x20) v false s

/-- LSU_ST16 (R166). -/
def execLsuSt16 (p : Pair) (u : Fin 2) (v : Word) (s : State) : Result := opCmd p (lsuPort u 0x21) v false s

/-- LSU_ST32 (R166). -/
def execLsuSt32 (p : Pair) (u : Fin 2) (v : Word) (s : State) : Result := opCmd p (lsuPort u 0x22) v false s

/-- LSU_ST64 (R166). -/
def execLsuSt64 (p : Pair) (u : Fin 2) (v : Word) (s : State) : Result := opCmd p (lsuPort u 0x23) v false s

/-- LSU_ST128 (R166). -/
def execLsuSt128 (p : Pair) (u : Fin 2) (v : Word) (s : State) : Result := opCmd p (lsuPort u 0x24) v false s

/-- LSU_ST256 (R166). -/
def execLsuSt256 (p : Pair) (u : Fin 2) (v : Word) (s : State) : Result := opCmd p (lsuPort u 0x25) v false s

/-- STQA (R169). -/
def execStqa (p : Pair) (u : Fin 2) (v : Word) (s : State) : Result := opCmd p (lsuPort u 0x26) v false s

end Sys2Proof.Machine
end

