-- ==== Sys2Proof/Machine/ExecMulDiv.lean ====
section
/-! DEFINITION. The commands of the multiplier and the divider (R147 to R152). -/

namespace Sys2Proof.Machine

/-- MULS (R147). -/
def execMuls (p : Pair) (b : Word) (s : State) : Result := opCmd p 0x308 b false s

/-- MULU (R147). -/
def execMulu (p : Pair) (b : Word) (s : State) : Result := opCmd p 0x309 b false s

/-- MULSU (R147). -/
def execMulsu (p : Pair) (b : Word) (s : State) : Result := opCmd p 0x30a b false s

/-- MULQ (R147). -/
def execMulq (p : Pair) (b : Word) (sat : Bool) (s : State) : Result := opCmd p 0x30b b sat s

/-- MUL32 (R147). -/
def execMul32 (p : Pair) (b : Word) (sat : Bool) (s : State) : Result := opCmd p 0x30c b sat s

/-- DIVS32 (R149). -/
def execDivs32 (p : Pair) (b : Word) (sat : Bool) (s : State) : Result := opCmd p 0x388 b sat s

/-- DIVU32 (R149). -/
def execDivu32 (p : Pair) (b : Word) (s : State) : Result := opCmd p 0x389 b false s

/-- REMS32 (R149). -/
def execRems32 (p : Pair) (b : Word) (s : State) : Result := opCmd p 0x38a b false s

/-- REMU32 (R149). -/
def execRemu32 (p : Pair) (b : Word) (s : State) : Result := opCmd p 0x38b b false s

/-- DIVS64 (R149). -/
def execDivs64 (p : Pair) (b : Word) (sat : Bool) (s : State) : Result := opCmd p 0x38c b sat s

/-- DIVU64 (R149). -/
def execDivu64 (p : Pair) (b : Word) (s : State) : Result := opCmd p 0x38d b false s

/-- REMS64 (R149). -/
def execRems64 (p : Pair) (b : Word) (s : State) : Result := opCmd p 0x38e b false s

/-- REMU64 (R149). -/
def execRemu64 (p : Pair) (b : Word) (s : State) : Result := opCmd p 0x38f b false s

/-- DIV_RESULT_LAND (R151). -/
def execDivResultLand (p : Pair) (s : State) : Result := onDev s (doDivResultLand p.val)

end Sys2Proof.Machine
end

