-- ==== Sys2Proof/Machine/ExecPly.lean ====
section
/-! DEFINITION. The commands of the two-ply pairs (R366 to R384). -/

namespace Sys2Proof.Machine

/-- COMPARATOR_MISMATCH (R369). -/
def execComparatorMismatch (p : Pair) (fault : PlyFault) (more : List PlyFault) (port : BitVec 12)
    (plyB : Word) (s : State) : Result :=
  onDev s (doComparatorMismatch s.role.state p.val (fault :: more) port.toNat plyB)

/-- PLY_RESET (R376). -/
def execPlyReset (p : Pair) (s : State) : Result := onDev s (doPlyReset p.val)

/-- INJECTION_END (R371). -/
def execInjectionEnd (p : Pair) (silent : Option (Fin 64)) (s : State) : Result :=
  onDev s (doInjectionEnd p.val silent)

/-- RESYNC_COPY_COMPLETE (R376). -/
def execResyncCopyComplete (p : Pair) (s : State) : Result := onDev s (doResyncCopyComplete p.val)

/-- RESYNC_TIMEOUT (R377). -/
def execResyncTimeout (p : Pair) (s : State) : Result := onDev s (doResyncTimeout p.val)

/-- QUAR_RELEASE (R380). -/
def execQuarRelease (ini : Initiator) (p : Pair) (s : State) : Result := regCmd ini (plyQuarRelease p.val).off 1 s

/-- PAIR_RESET (R381). -/
def execPairReset (ini : Initiator) (p : Pair) (s : State) : Result := regCmd ini (plyQuarRelease p.val).off 2 s

/-- DBG_HALT (R382). -/
def execDbgHalt (ini : Initiator) (p : Pair) (s : State) : Result := regCmd ini (plyDbgHalt p.val).off 1 s

/-- DBG_RESUME (R382). -/
def execDbgResume (ini : Initiator) (p : Pair) (s : State) : Result := regCmd ini (plyDbgHalt p.val).off 2 s

/-- DBG_STEP (R382). -/
def execDbgStep (ini : Initiator) (p : Pair) (s : State) : Result := regCmd ini (plyDbgHalt p.val).off 4 s

/-- DBG_READ (R382). -/
def execDbgRead (ini : Initiator) (p : Pair) (s : State) : Result := regCmd ini (plyDbgHalt p.val).off 8 s

/-- DBG_WRITE (R382). -/
def execDbgWrite (ini : Initiator) (p : Pair) (s : State) : Result := regCmd ini (plyDbgHalt p.val).off 16 s

end Sys2Proof.Machine
end

