-- ==== Sys2Proof/Machine/ExecPower.lean ====
section
/-! DEFINITION. The commands of start-up, shut-down, standby, power and storage (R413 to R440). -/

namespace Sys2Proof.Machine

/-- POWER_GOOD (R416). -/
def execPowerGood (ms : W32) (s : State) : Result := onPower s (onD (doPowerGood ms))

/-- QUICK_TEST_END (R417). -/
def execQuickTestEnd (sigs : List Word) (s : State) : Result := onDev s (doQuickTestEnd sigs)

/-- PTP_INITIAL_STEP (R302). -/
def execPtpInitialStep (ns : Word) (s : State) : Result := onDev s (doPtpInitialStep ns)

/-- MODULE_RESET (R416). -/
def execModuleReset (slotB : Bool) (s : State) : Result := onPower s (Sys2Proof.Machine.moduleReset slotB)

/-- RUN (R421). -/
def execRun (ini : Initiator) (s : State) : Result := regCmd ini 0x410040 8 s

/-- BIST_TEST_END (R421). -/
def execBistTestEnd (index : Fin 42) (sig : Word) (s : State) : Result :=
  onDev s (doBistTestEnd s.role.state index.val sig)

/-- SHUTDOWN (R424). -/
def execShutdown (ini : Initiator) (s : State) : Result := regCmd ini 0x410040 1 s

/-- SHUTDOWN_GROUP_END (R424). -/
def execShutdownGroupEnd (s : State) : Result := onDev s doShutdownGroupEnd

/-- STANDBY (R425). -/
def execStandby (ini : Initiator) (s : State) : Result := regCmd ini 0x410040 2 s

/-- STANDBY_ENTRY_COMPLETE (R426). -/
def execStandbyEntryComplete (s : State) : Result := onDev s doStandbyEntryComplete

/-- WAKE (R427). -/
def execWake (ini : Initiator) (s : State) : Result := regCmd ini 0x410040 4 s

/-- WAKE_RESTORE (R426). -/
def execWakeRestore (s : State) : Result := onDev s doWakeRestore

/-- SUPPLY_INPUT_LOSS (R428). -/
def execSupplyInputLoss (b : Bool) (s : State) : Result := onPower s (onD (doSupplyInputLoss b))

/-- SUPPLY_BOTH_LOST (R428). -/
def execSupplyBothLost (s : State) : Result := onPower s (onD doSupplyBothLost)

/-- SUPPLY_RECOVERY (R428). -/
def execSupplyRecovery (b : Bool) (s : State) : Result := onPower s (doSupplyRecovery b)

/-- HOLDUP_END (R428). -/
def execHoldupEnd (s : State) : Result := onPower s (doHoldupEnd)

/-- OVERTEMP_TRIP (R439). -/
def execOvertempTrip (s : State) : Result := onPower s (onD doOvertempTrip)

/-- LOG_PERSIST_COPY (R428). -/
def execLogPersistCopy (s : State) : Result := onDev s doLogPersistCopy

/-- NOR_ERASE (R433). -/
def execNorErase (ini : Initiator) (s : State) : Result :=
  regEdit ini storCmdOp.off (fun w => putBit (putBits w 2 0 1) 31 true) s

/-- NOR_PROGRAM (R433). -/
def execNorProgram (ini : Initiator) (s : State) : Result :=
  regEdit ini storCmdOp.off (fun w => putBit (putBits w 2 0 2) 31 true) s

/-- ITEM_WRITE (R429). -/
def execItemWrite (ini : Initiator) (s : State) : Result :=
  regEdit ini storCmdOp.off (fun w => putBit (putBits w 2 0 3) 31 true) s

/-- ITEM_DELETE (R430). -/
def execItemDelete (ini : Initiator) (s : State) : Result :=
  regEdit ini storCmdOp.off (fun w => putBit (putBits w 2 0 4) 31 true) s

/-- LOG_FLUSH (R433). -/
def execLogFlush (ini : Initiator) (s : State) : Result :=
  regEdit ini storCmdOp.off (fun w => putBit (putBits w 2 0 5) 31 true) s

/-- STOR_CMD_DONE (R433). -/
def execStorCmdDone (ok : Bool) (s : State) : Result := onDev s (doStorCmdDone ok)

end Sys2Proof.Machine
end

