-- ==== Sys2Proof/Machine/ExecReg.lean ====
section
/-! DEFINITION. The commands of management, the channel table and the register pages (R37 to R94). -/

namespace Sys2Proof.Machine

/-- HANK_REQUEST (R64). -/
def execHankRequest (r : HankDatagram) (s : State) : Result := onBoth s (doHankRequest r.src r.msg)

/-- HANK_COMMITTED_REPLY (R67). -/
def execHankCommittedReply (h : Hue) (s : State) : Result := onDev s (doHankCommittedReply s.role.state h.val)

/-- KEY_COMMIT (R68). -/
def execKeyCommit (ini : Initiator) (keepSeq : Bool) (s : State) : Result :=
  regCmd ini 0x106C (1 + b2n keepSeq * 4) s

/-- KEY_REVOKE (R68). -/
def execKeyRevoke (ini : Initiator) (s : State) : Result := regCmd ini 0x106C 2 s

/-- CHT_INVAL (R79). -/
def execChtInval (ini : Initiator) (index : BitVec 9) (s : State) : Result := regCmd ini 0x50044 index.toNat s

/-- INVAL_ALL (R94). -/
def execInvalAll (ini : Initiator) (s : State) : Result := regCmd ini 0x50044 0x10000 s

/-- STAGING_COMMIT (R81). -/
def execStagingCommit (ini : Initiator) (h : Hue) (s : State) : Result := regCmd ini (slotCommit h.val).off 1 s

/-- ARM (R83). -/
def execArm (ini : Initiator) (both : Bool) (s : State) : Result := regCmd ini chtArm.off (1 + b2n both * 16) s

/-- CANCEL (R84). -/
def execCancel (ini : Initiator) (both : Bool) (s : State) : Result := regCmd ini chtArm.off (2 + b2n both * 16) s

/-- DONE_CPN (R87). -/
def execDoneCpn (ini : Initiator) (p : Pair) (v : W32) (s : State) : Result :=
  regCmd ini (0x50080 + 4 * p.val) v.toNat s

/-- SOFT_RST (R46). -/
def execSoftRst (ini : Initiator) (b : Blk) (s : State) : Result :=
  regCmd ini (blkBase b + 8) 2 s

/-- SOFT_RST_COMPLETE (R46). -/
def execSoftRstComplete (b : Blk) (s : State) : Result := onDev s (doSoftRstComplete b)

/-- EN_CLEAR (R53). -/
def execEnClear (ini : Initiator) (b : Blk) (s : State) : Result :=
  regCmd ini (blkBase b + 8) (4 * rd s.dev (hdrHalt b)) s

/-- EN_SET (R53). -/
def execEnSet (ini : Initiator) (b : Blk) (s : State) : Result :=
  regCmd ini (blkBase b + 8) (1 + 4 * rd s.dev (hdrHalt b)) s

/-- QUIESCE_COMPLETE (R53). -/
def execQuiesceComplete (b : Blk) (s : State) : Result := onDev s (doQuiesceComplete b)

/-- QUIESCE_TIMEOUT (R54). -/
def execQuiesceTimeout (b : Blk) (s : State) : Result := onDev s (doQuiesceTimeout b)

/-- ERR_CODE_WRITE (R44). -/
def execErrCodeWrite (ini : Initiator) (b : Blk) (v : W32) (s : State) : Result :=
  regCmd ini (blkBase b + 0x1C) v.toNat s

/-- COUNTER_CLEAR (R44). -/
def execCounterClear (ini : Initiator) (a : Addr) (s : State) : Result := accessCmd ini a.toNat 4 0 s

/-- TIMESTAMP_LOW_READ (R49). -/
def execTimestampLowRead (ini : Initiator) (a : Addr) (s : State) : Result :=
  onBoth s (fun x => (busRead ini a.toNat 4 x).2.2)

/-- REGISTER_WRITE (R50, R57): an access of `bytes` bytes, or a burst, whose bytes are its own. -/
def execRegisterWrite (ini : Initiator) (a : Addr) (data : AccessData) (bytes : Fin 9) (s : State) : Result :=
  match data with
  | .word v => accessCmd ini a.toNat bytes.val v s
  | .burst l => onBoth s (fun x => (busBurst ini a.toNat (l.map (fun c => (c.1.val, c.2))) x).1)

end Sys2Proof.Machine
end

