-- ==== Sys2Proof/Machine/ExecSpindle.lean ====
section
/-! DEFINITION. The commands of the Spindle (R213 to R241). -/

namespace Sys2Proof.Machine

/-- CH_EN_SET (R224). -/
def execChEnSet (ini : Initiator) (c : Chan) (s : State) : Result := regCmd ini (spCh c.val) 1 s

/-- CH_EN_CLEAR (R236). -/
def execChEnClear (ini : Initiator) (c : Chan) (s : State) : Result := regCmd ini (spCh c.val) 0 s

/-- CH_ARM (R224). -/
def execChArm (ini : Initiator) (c : Chan) (s : State) : Result :=
  regCmd ini (spCh c.val) (chEnBit s.dev c.val + 2) s

/-- CH_DISARM (R224). -/
def execChDisarm (ini : Initiator) (c : Chan) (s : State) : Result :=
  regCmd ini (spCh c.val) (chEnBit s.dev c.val + 4) s

/-- CH_SWTRIG (R230). -/
def execChSwtrig (ini : Initiator) (c : Chan) (s : State) : Result :=
  regCmd ini (spCh c.val) (chEnBit s.dev c.val + 8) s

/-- SPINDLE_TRIGGER (R231). -/
def execSpindleTrigger (line : Byte) (s : State) : Result := onDev s (doSpindleTrigger line.toNat)

/-- SPINDLE_READ_ISSUE (R223). -/
def execSpindleReadIssue (s : State) : Result := onDev s doSpindleReadIssue

/-- SPINDLE_READ_RESPONSE (R214). -/
def execSpindleReadResponse (c : Chan) (r : SpindleReply) (s : State) : Result :=
  onDev s (doSpindleReadResponse c.val r.late r.err)

/-- SPINDLE_WRITE_ISSUE (R222). -/
def execSpindleWriteIssue (s : State) : Result := onDev s doSpindleWriteIssue

/-- SPINDLE_WRITE_RESPONSE (R227). -/
def execSpindleWriteResponse (c : Chan) (r : SpindleReply) (s : State) : Result :=
  onDev s (doSpindleWriteResponse c.val r.late r.err)

/-- RESP_TIMEOUT (R233). -/
def execRespTimeout (c : Chan) (s : State) : Result := onDev s (doRespTimeout c.val)

/-- RESTART_HI (R235). -/
def execRestartHi (ini : Initiator) (c : Chan) (v : W32) (s : State) : Result :=
  regCmd ini (spCh c.val + 0x24) v.toNat s

/-- SPINDLE_CH_QUIESCE_END (R236). -/
def execSpindleChQuiesceEnd (c : Chan) (s : State) : Result := onDev s (doSpindleChQuiesceEnd c.val)

end Sys2Proof.Machine
end

