-- ==== Sys2Proof/Machine/ExecStream.lean ====
section
/-! DEFINITION. The commands of stream I/O and network time (R280 to R308). -/

namespace Sys2Proof.Machine

/-- RX_PACKET: filed, and seen by a module that watches the witness (R284, R408). -/
def execRxPacket (pkt : MediaPacket) (s : State) : Result :=
  onBoth s (fun x =>
    let y := onD (doRxPacket pkt) x
    if isWitness pkt x.2 then doWitnessPacketRx y else y)

/-- STREAM_EN_WRITE (R295). -/
def execStreamEnWrite (ini : Initiator) (tx : Bool) (stream : Fin 128) (en : Bool) (s : State) : Result :=
  regEdit ini (if tx then strmTx stream.val else strmRx stream.val) (fun w => putBit w 0 en) s

/-- IGMP_QUERY (R289). -/
def execIgmpQuery (net : Fin 2) (version : Fin 4) (s : State) : Result := onDev s (doIgmpQuery net.val version.val)

/-- ARP_REQUEST (R292). -/
def execArpRequest (net : Fin 2) (ip : W32) (s : State) : Result :=
  onDev s (doArpRequest (txActive s.role.state s.dev) net.val ip)

/-- SFP_LINK_CHANGE (R306). -/
def execSfpLinkChange (net : Fin 2) (up : Bool) (s : State) : Result := onDev s (doSfpLinkChange net.val up)

/-- PTP_SYNC_RX (R301). -/
def execPtpSyncRx (src : PtpSource) (offset : Int) (freq : Int) (s : State) : Result :=
  onDev s (doPtpSyncRx src.net.val src.domain offset freq)

/-- PTP_DELAY_RESP_RX (R300). -/
def execPtpDelayRespRx (src : PtpSource) (delay : Int) (s : State) : Result :=
  onDev s (doPtpDelayRespRx src.net.val src.domain delay)

/-- PTP_DELAY_REQ_TX (R300). -/
def execPtpDelayReqTx (net : Fin 2) (s : State) : Result := onDev s (doPtpDelayReqTx net.val)

/-- PTP_ANNOUNCE_RX (R303). -/
def execPtpAnnounceRx (a : Announce) (s : State) : Result := onDev s (doPtpAnnounceRx (followsTwin s) a)

/-- PTP_ANNOUNCE_TIMEOUT (R300). -/
def execPtpAnnounceTimeout (net : Fin 2) (s : State) : Result :=
  onDev s (doPtpAnnounceTimeout (followsTwin s) net.val)

/-- PTP_SYNC_TX (R303). -/
def execPtpSyncTx (net : Fin 2) (s : State) : Result := onDev s (doPtpSyncTx net.val)

/-- PTP_HOLDOVER_EXPIRE (R300). -/
def execPtpHoldoverExpire (s : State) : Result := onDev s doPtpHoldoverExpire

/-- PTP_STEP_REQ (R302). -/
def execPtpStepReq (ini : Initiator) (s : State) : Result := regCmd ini 0x210068 1 s

end Sys2Proof.Machine
end

