-- ==== Sys2Proof/Machine/ExecSup.lean ====
section
/-! DEFINITION. The commands of line supervision (R309 to R340). -/

namespace Sys2Proof.Machine

/-- SUP_WINDOW_END (R316). -/
def execSupWindowEnd (k : Line) (s : State) : Result := onDev s (doSupWindowEnd k.val)

/-- SUP_PUBLISH (R336). -/
def execSupPublish (k : Line) (s : State) : Result := onDev s (doSupPublish k.val)

/-- NIGHT_START (R324). -/
def execNightStart (ini : Initiator) (s : State) : Result := regCmd ini 0x300064 1 s

/-- NIGHT_ABORT (R329). -/
def execNightAbort (ini : Initiator) (s : State) : Result := regCmd ini 0x300064 2 s

/-- NIGHT_GROUP_BEGIN (R325). -/
def execNightGroupBegin (g : Fin 8) (s : State) : Result := onDev s (doNightGroupBegin g.val)

/-- NIGHT_LEVEL_SET (R326). -/
def execNightLevelSet (g : Fin 8) (s : State) : Result := onDev s (doNightLevelSet g.val)

/-- NIGHT_STEP_END (R327). -/
def execNightStepEnd (g : Fin 8) (step : Fin 16) (s : State) : Result := onDev s (doNightStepEnd g.val step.val)

/-- NIGHT_GROUP_END (R328). -/
def execNightGroupEnd (g : Fin 8) (s : State) : Result := onDev s (doNightGroupEnd g.val)

/-- NIGHT_PUBLISH (R336). -/
def execNightPublish (k : Line) (s : State) : Result := onDev s (doNightPublish k.val)

/-- NIGHT_WINDOW_END (R328). -/
def execNightWindowEnd (s : State) : Result := onDev s doNightWindowEnd

/-- ADOPT (R330). -/
def execAdopt (ini : Initiator) (s : State) : Result := regCmd ini supLoad.off 2 s

/-- LOAD (R331). -/
def execLoad (ini : Initiator) (s : State) : Result := regCmd ini supLoad.off 1 s

end Sys2Proof.Machine
end

