-- ==== Sys2Proof/Machine/ExecTag.lean ====
section
/-! DEFINITION. The commands of the Whorl tags and wear (R341 to R365). -/

namespace Sys2Proof.Machine

/-- PASS_START (R353). -/
def execPassStart (ini : Initiator) (s : State) : Result :=
  regEdit ini tagPassStart.off (fun w => putBits w 1 0 1) s

/-- PASS_ABORT (R353). -/
def execPassAbort (ini : Initiator) (s : State) : Result :=
  regEdit ini tagPassStart.off (fun w => putBits w 1 0 2) s

/-- TAG_LANE_ASSIGN (R353). -/
def execTagLaneAssign (s : State) : Result := onDev s doTagLaneAssign

/-- TAG_DOWNLINK_START (R346). -/
def execTagDownlinkStart (lane : Fin 24) (s : State) : Result := onDev s (doTagDownlinkStart lane.val)

/-- ENUM_START (R351). -/
def execEnumStart (lane : Fin 24) (s : State) : Result := onDev s (doEnumStart lane.val)

/-- PING (R350). -/
def execPing (lane : Fin 24) (addr : BitVec 16) (s : State) : Result := onDev s (doPing lane.val addr.toNat)

/-- READ_PAGE (R350). -/
def execReadPage (lane : Fin 24) (page : Fin 8) (addr : BitVec 16) (s : State) : Result :=
  onDev s (doReadPage lane.val page.val addr.toNat)

/-- READ_PAGE_ID (R350). -/
def execReadPageId (lane : Fin 24) (page : Fin 8) (id : Word) (s : State) : Result :=
  onDev s (doReadPageId lane.val page.val id)

/-- WRITE_PAGE (R345). -/
def execWritePage (lane : Fin 24) (page : Fin 8) (addr : BitVec 16) (s : State) : Result :=
  onDev s (doWritePage lane.val page.val addr.toNat)

/-- ENUM_BURST_END (R351). -/
def execEnumBurstEnd (lane : Fin 24) (line : Line) (s : State) : Result := onDev s (doEnumBurstEnd lane.val line.val)

/-- TAG_REPLY_RX (R350). -/
def execTagReplyRx (lane : Fin 24) (line : Line) (s : State) : Result := onDev s (doTagReplyRx lane.val line.val)

/-- TAG_REPLY_TIMEOUT (R350). -/
def execTagReplyTimeout (lane : Fin 24) (s : State) : Result := onDev s (doTagReplyTimeout lane.val)

/-- TAG_WRITE_DUE (R345). -/
def execTagWriteDue (s : State) : Result := onDev s doTagWriteDue

/-- WEAR_STEP (R356). -/
def execWearStep (s : State) : Result := onDev s doWearStep

/-- MODEL_COMMIT (R360). -/
def execModelCommit (ini : Initiator) (s : State) : Result :=
  regEdit ini wearModelCommit.off (fun w => putBit w 16 true) s

/-- WEAR_RECORD_COMMIT (R355). -/
def execWearRecordCommit (ini : Initiator) (s : State) : Result := regCmd ini wearCommit.off 1 s

end Sys2Proof.Machine
end

