-- ==== Sys2Proof/Machine/ExecTwin.lean ====
section
/-! DEFINITION. The commands of twin pairing and the Apdin link (R385 to R412). -/

namespace Sys2Proof.Machine

/-- HELLO_RX (R395). -/
def execHelloRx (lseq : W32) (h : Hello) (s : State) : Result := onBoth s (rxMsg lseq (doHelloRx h))

/-- BEAT_RX (R390). -/
def execBeatRx (lseq : W32) (sample : Fin 12) (state : TwinState) (tick : Word) (s : State) : Result :=
  onBoth s (rxMsg lseq (onD (doBeatRx s.role.state sample.val tick)))

/-- LINK_RX (R394). -/
def execLinkRx (msg : LinkWords) (acked : W32) (lanes : Fin 16) (s : State) : Result :=
  onBoth s (doLinkRx msg acked lanes.val)

/-- IN_PKT_RX (R396). -/
def execInPktRx (lseq : W32) (stream : Fin 128) (net : Fin 2) (frame : Word) (ts : W32) (payload : List Byte) (s : State) : Result :=
  onBoth s (rxMsg lseq (onD (doInPktRx stream.val net.val frame ts payload)))

/-- IN_TDM_RX (R396). -/
def execInTdmRx (lseq : W32) (port : Fin 12) (frame : Word) (words : List W32) (s : State) : Result :=
  onBoth s (rxMsg lseq (onD (doInTdmRx port.val frame words)))

/-- IN_DIGEST_RX (R397). -/
def execInDigestRx (lseq : W32) (frame : Word) (digest : Word) (s : State) : Result :=
  onBoth s (rxMsg lseq (doInDigestRx frame digest))

/-- CHANGE_FWD_RX (R398). -/
def execChangeFwdRx (lseq : W32) (op : ChangeOp) (hank : Option HankTag) (s : State) : Result :=
  onBoth s (rxMsg lseq (doChangeFwdRx op hank))

/-- CHANGE_RX (R398). -/
def execChangeRx (lseq : W32) (c : Held) (s : State) : Result := onBoth s (rxMsg lseq (doChangeRx c))

/-- SEAL_RX (R398). -/
def execSealRx (lseq : W32) (frame : Word) (num : Nat) (s : State) : Result :=
  onBoth s (rxMsg lseq (doSealRx frame num))

/-- SEAL_ACK_RX (R399). -/
def execSealAckRx (lseq : W32) (frame : Word) (s : State) : Result :=
  onBoth s (rxMsg lseq (onD (doSealAckRx frame)))

/-- SHADOW_RX (R404). -/
def execShadowRx (lseq : W32) (frame : Word) (words : List W32) (s : State) : Result :=
  onBoth s (rxMsg lseq (fun x => onD (doShadowRx x.1.state frame words) x))

/-- HASH_RX (R403). -/
def execHashRx (lseq : W32) (frame : Word) (port : Bool) (index : Fin 128) (hash : Word) (s : State) : Result :=
  onBoth s (rxMsg lseq (doHashRx frame port index.val hash))

/-- SWEEP_RX (R372). -/
def execSweepRx (lseq : W32) (frame : Word) (p : Pair) (words : List Word) (s : State) : Result :=
  onBoth s (rxMsg lseq (onD (doSweepRx frame p.val words)))

/-- BULK_RX (R406). -/
def execBulkRx (lseq : W32) (addr : Addr) (block : BulkBlock) (s : State) : Result :=
  onBoth s (rxMsg lseq (onD (doBulkRx s.role.state addr.toNat block)))

/-- BULK_FWD_RX (R406). -/
def execBulkFwdRx (lseq : W32) (addr : Addr) (data : Word) (s : State) : Result :=
  onBoth s (rxMsg lseq (onD (bulkWrite addr.toNat [data])))

/-- STATE_RX (R395). -/
def execStateRx (lseq : W32) (state : TwinState) (hold silence : Bool) (s : State) : Result :=
  onBoth s (rxMsg lseq (doStateRx state hold silence))

/-- APDIN_RETX_TIMEOUT (R394). -/
def execApdinRetxTimeout (s : State) : Result := onBoth s doApdinRetxTimeout

/-- APDIN_RX_SILENCE (R394). -/
def execApdinRxSilence (s : State) : Result := onBoth s linkDown

/-- APDIN_LANE_LOSS (R392). -/
def execApdinLaneLoss (lane : Fin 4) (s : State) : Result := onBoth s (doApdinLaneLoss lane.val)

/-- WITNESS_PACKET_RX (R408). -/
def execWitnessPacketRx (s : State) : Result := onBoth s doWitnessPacketRx

/-- SPLIT_BRAIN_TIMEOUT (R408). -/
def execSplitBrainTimeout (s : State) : Result := onBoth s doSplitBrainTimeout

/-- WDOG_KICK (R391). -/
def execWdogKick (ini : Initiator) (s : State) : Result := regCmd ini 0x400050 1 s

/-- WATCHDOG_EXPIRE (R391). -/
def execWatchdogExpire (s : State) : Result := onBoth s doWatchdogExpire

/-- QUIET (R405). -/
def execQuiet (ini : Initiator) (s : State) : Result := regCmd ini 0x400048 1 s

/-- QUIET_HOLD (R405). -/
def execQuietHold (ini : Initiator) (s : State) : Result := regCmd ini 0x400048 2 s

/-- RELEASE_HOLD (R405). -/
def execReleaseHold (ini : Initiator) (s : State) : Result := regCmd ini 0x400048 4 s

/-- JOIN (R405). -/
def execJoin (ini : Initiator) (s : State) : Result := regCmd ini 0x400048 8 s

/-- JOIN_TIMEOUT (R405). -/
def execJoinTimeout (s : State) : Result := onBoth s doJoinTimeout

/-- APDIN_LINK_UP (R392). -/
def execApdinLinkUp (lanes : Fin 5) (s : State) : Result := onBoth s (doApdinLinkUp lanes.val)

end Sys2Proof.Machine
end

