-- ==== Sys2Proof/Machine/Dispatch.lean ====
section
/-! DEFINITION. `exec`: one arm for each command, each one call of that command's meaning. -/

namespace Sys2Proof.Machine

/-- The effect of a command on everything but the queue. -/
def exec (i : Instr) (s : State) : Host.Outcome State Fault Refusal :=
  match i with
  | .frameTick => Sys2Proof.Machine.execFrameTick s
  | .inputReady => Sys2Proof.Machine.execInputReady s
  | .frameStart => Sys2Proof.Machine.execFrameStart s
  | .outputOpen => Sys2Proof.Machine.execOutputOpen s
  | .migrationTrigger => Sys2Proof.Machine.execMigrationTrigger s
  | .txStart => Sys2Proof.Machine.execTxStart s
  | .seal => Sys2Proof.Machine.execSeal s
  | .rxCutoff => Sys2Proof.Machine.execRxCutoff s
  | .sampleTick sample sdin => Sys2Proof.Machine.execSampleTick sample sdin s
  | .heartbeatTest lines => Sys2Proof.Machine.execHeartbeatTest lines s
  | .bundleIssue p => Sys2Proof.Machine.execBundleIssue p s
  | .fixedLatencyLand p => Sys2Proof.Machine.execFixedLatencyLand p s
  | .syncClassApply p => Sys2Proof.Machine.execSyncClassApply p s
  | .syncBundle p => Sys2Proof.Machine.execSyncBundle p s
  | .jump p v => Sys2Proof.Machine.execJump p v s
  | .br p v => Sys2Proof.Machine.execBr p v s
  | .call p v => Sys2Proof.Machine.execCall p v s
  | .callr p v => Sys2Proof.Machine.execCallr p v s
  | .ret p => Sys2Proof.Machine.execRet p s
  | .rti p => Sys2Proof.Machine.execRti p s
  | .lcount p lvl v => Sys2Proof.Machine.execLcount p lvl v s
  | .lclr p lvl => Sys2Proof.Machine.execLclr p lvl s
  | .lstateWrite p lvl v => Sys2Proof.Machine.execLstateWrite p lvl v s
  | .wait p v => Sys2Proof.Machine.execWait p v s
  | .waitWake p => Sys2Proof.Machine.execWaitWake p s
  | .waitTimeout p => Sys2Proof.Machine.execWaitTimeout p s
  | .cmul p c k v sat => Sys2Proof.Machine.execCmul p c k v sat s
  | .cmulc p c k v sat => Sys2Proof.Machine.execCmulc p c k v sat s
  | .cmac p c k v sat => Sys2Proof.Machine.execCmac p c k v sat s
  | .cmacc p c k v sat => Sys2Proof.Machine.execCmacc p c k v sat s
  | .cmsc p c k v sat => Sys2Proof.Machine.execCmsc p c k v sat s
  | .cmscc p c k v sat => Sys2Proof.Machine.execCmscc p c k v sat s
  | .qdot p c k v sat => Sys2Proof.Machine.execQdot p c k v sat s
  | .qdotn p c k v sat => Sys2Proof.Machine.execQdotn p c k v sat s
  | .qset p c k v sat => Sys2Proof.Machine.execQset p c k v sat s
  | .clr p c k => Sys2Proof.Machine.execClr p c k s
  | .extr p c k sat => Sys2Proof.Machine.execExtr p c k sat s
  | .rawx p c k v => Sys2Proof.Machine.execRawx p c k v s
  | .raww p c k v => Sys2Proof.Machine.execRaww p c k v s
  | .cmacStatClear p c => Sys2Proof.Machine.execCmacStatClear p c s
  | .add32 p u b sat => Sys2Proof.Machine.execAdd32 p u b sat s
  | .add64 p u b sat => Sys2Proof.Machine.execAdd64 p u b sat s
  | .sub32 p u b sat => Sys2Proof.Machine.execSub32 p u b sat s
  | .sub64 p u b sat => Sys2Proof.Machine.execSub64 p u b sat s
  | .addx32 p u b => Sys2Proof.Machine.execAddx32 p u b s
  | .addx64 p u b => Sys2Proof.Machine.execAddx64 p u b s
  | .subx32 p u b => Sys2Proof.Machine.execSubx32 p u b s
  | .subx64 p u b => Sys2Proof.Machine.execSubx64 p u b s
  | .and p u b => Sys2Proof.Machine.execAnd p u b s
  | .or p u b => Sys2Proof.Machine.execOr p u b s
  | .xor p u b => Sys2Proof.Machine.execXor p u b s
  | .andn p u b => Sys2Proof.Machine.execAndn p u b s
  | .shl p u b sat => Sys2Proof.Machine.execShl p u b sat s
  | .shr p u b => Sys2Proof.Machine.execShr p u b s
  | .sar p u b => Sys2Proof.Machine.execSar p u b s
  | .sar32 p u b => Sys2Proof.Machine.execSar32 p u b s
  | .clz32 p u b => Sys2Proof.Machine.execClz32 p u b s
  | .clz64 p u b => Sys2Proof.Machine.execClz64 p u b s
  | .cls32 p u b => Sys2Proof.Machine.execCls32 p u b s
  | .cmpeq p u b => Sys2Proof.Machine.execCmpeq p u b s
  | .cmplt p u b => Sys2Proof.Machine.execCmplt p u b s
  | .cmpltu p u b => Sys2Proof.Machine.execCmpltu p u b s
  | .min p u b => Sys2Proof.Machine.execMin p u b s
  | .max p u b => Sys2Proof.Machine.execMax p u b s
  | .muls p b => Sys2Proof.Machine.execMuls p b s
  | .mulu p b => Sys2Proof.Machine.execMulu p b s
  | .mulsu p b => Sys2Proof.Machine.execMulsu p b s
  | .mulq p b sat => Sys2Proof.Machine.execMulq p b sat s
  | .mul32 p b sat => Sys2Proof.Machine.execMul32 p b sat s
  | .divs32 p b sat => Sys2Proof.Machine.execDivs32 p b sat s
  | .divu32 p b => Sys2Proof.Machine.execDivu32 p b s
  | .rems32 p b => Sys2Proof.Machine.execRems32 p b s
  | .remu32 p b => Sys2Proof.Machine.execRemu32 p b s
  | .divs64 p b sat => Sys2Proof.Machine.execDivs64 p b sat s
  | .divu64 p b => Sys2Proof.Machine.execDivu64 p b s
  | .rems64 p b => Sys2Proof.Machine.execRems64 p b s
  | .remu64 p b => Sys2Proof.Machine.execRemu64 p b s
  | .divResultLand p => Sys2Proof.Machine.execDivResultLand p s
  | .fadd p dbl b => Sys2Proof.Machine.execFadd p dbl b s
  | .fsub p dbl b => Sys2Proof.Machine.execFsub p dbl b s
  | .fmul p dbl b => Sys2Proof.Machine.execFmul p dbl b s
  | .fma p dbl b => Sys2Proof.Machine.execFma p dbl b s
  | .fms p dbl b => Sys2Proof.Machine.execFms p dbl b s
  | .fnma p dbl b => Sys2Proof.Machine.execFnma p dbl b s
  | .fmin p dbl b => Sys2Proof.Machine.execFmin p dbl b s
  | .fmax p dbl b => Sys2Proof.Machine.execFmax p dbl b s
  | .fcmpeq p dbl b => Sys2Proof.Machine.execFcmpeq p dbl b s
  | .fcmplt p dbl b => Sys2Proof.Machine.execFcmplt p dbl b s
  | .fcmple p dbl b => Sys2Proof.Machine.execFcmple p dbl b s
  | .fcmpun p dbl b => Sys2Proof.Machine.execFcmpun p dbl b s
  | .fdiv p dbl b => Sys2Proof.Machine.execFdiv p dbl b s
  | .fsqrt p dbl b => Sys2Proof.Machine.execFsqrt p dbl b s
  | .fpuIterLand p => Sys2Proof.Machine.execFpuIterLand p s
  | .fcvtDS p b => Sys2Proof.Machine.execFcvtDS p b s
  | .fcvtSD p b => Sys2Proof.Machine.execFcvtSD p b s
  | .fcvtSW p b => Sys2Proof.Machine.execFcvtSW p b s
  | .fcvtDW p b => Sys2Proof.Machine.execFcvtDW p b s
  | .fcvtDL p b => Sys2Proof.Machine.execFcvtDL p b s
  | .fcvtWS p b => Sys2Proof.Machine.execFcvtWS p b s
  | .fcvtWD p b => Sys2Proof.Machine.execFcvtWD p b s
  | .fcvtLD p b => Sys2Proof.Machine.execFcvtLD p b s
  | .fcvtSQ p b => Sys2Proof.Machine.execFcvtSQ p b s
  | .fcvtDQ p b => Sys2Proof.Machine.execFcvtDQ p b s
  | .fcvtQS p b => Sys2Proof.Machine.execFcvtQS p b s
  | .fcvtQD p b => Sys2Proof.Machine.execFcvtQD p b s
  | .fstatWrite p v => Sys2Proof.Machine.execFstatWrite p v s
  | .lsuLd8u p u v => Sys2Proof.Machine.execLsuLd8u p u v s
  | .lsuLd8s p u v => Sys2Proof.Machine.execLsuLd8s p u v s
  | .lsuLd16u p u v => Sys2Proof.Machine.execLsuLd16u p u v s
  | .lsuLd16s p u v => Sys2Proof.Machine.execLsuLd16s p u v s
  | .lsuLd32u p u v => Sys2Proof.Machine.execLsuLd32u p u v s
  | .lsuLd32s p u v => Sys2Proof.Machine.execLsuLd32s p u v s
  | .lsuLd64 p u v => Sys2Proof.Machine.execLsuLd64 p u v s
  | .lsuLd128 p u v => Sys2Proof.Machine.execLsuLd128 p u v s
  | .lsuLd256 p u v => Sys2Proof.Machine.execLsuLd256 p u v s
  | .ldqa p u v => Sys2Proof.Machine.execLdqa p u v s
  | .lsuSt8 p u v => Sys2Proof.Machine.execLsuSt8 p u v s
  | .lsuSt16 p u v => Sys2Proof.Machine.execLsuSt16 p u v s
  | .lsuSt32 p u v => Sys2Proof.Machine.execLsuSt32 p u v s
  | .lsuSt64 p u v => Sys2Proof.Machine.execLsuSt64 p u v s
  | .lsuSt128 p u v => Sys2Proof.Machine.execLsuSt128 p u v s
  | .lsuSt256 p u v => Sys2Proof.Machine.execLsuSt256 p u v s
  | .stqa p u v => Sys2Proof.Machine.execStqa p u v s
  | .extLd32u p a => Sys2Proof.Machine.execExtLd32u p a s
  | .extLd32s p a => Sys2Proof.Machine.execExtLd32s p a s
  | .extLd64 p a => Sys2Proof.Machine.execExtLd64 p a s
  | .extSt32 p a => Sys2Proof.Machine.execExtSt32 p a s
  | .extSt64 p a => Sys2Proof.Machine.execExtSt64 p a s
  | .extLoadResponse p err => Sys2Proof.Machine.execExtLoadResponse p err s
  | .tornRetry p => Sys2Proof.Machine.execTornRetry p s
  | .writeBufferSend p err => Sys2Proof.Machine.execWriteBufferSend p err s
  | .dclean p a => Sys2Proof.Machine.execDclean p a s
  | .dinv p a => Sys2Proof.Machine.execDinv p a s
  | .dcleaninv p a => Sys2Proof.Machine.execDcleaninv p a s
  | .dcleanR p a => Sys2Proof.Machine.execDcleanR p a s
  | .dinvR p a => Sys2Proof.Machine.execDinvR p a s
  | .dcleaninvR p a => Sys2Proof.Machine.execDcleaninvR p a s
  | .dcleanAll p => Sys2Proof.Machine.execDcleanAll p s
  | .dcleaninvAll p => Sys2Proof.Machine.execDcleaninvAll p s
  | .iinv p a => Sys2Proof.Machine.execIinv p a s
  | .iinvR p a => Sys2Proof.Machine.execIinvR p a s
  | .iinvAll p => Sys2Proof.Machine.execIinvAll p s
  | .ifill p a => Sys2Proof.Machine.execIfill p a s
  | .rangeOpDone r => Sys2Proof.Machine.execRangeOpDone r s
  | .fence p => Sys2Proof.Machine.execFence p s
  | .fenceComplete p => Sys2Proof.Machine.execFenceComplete p s
  | .icacheMissFill p err => Sys2Proof.Machine.execIcacheMissFill p err s
  | .bobbinEnq p q => Sys2Proof.Machine.execBobbinEnq p q s
  | .bobbinDeq p q => Sys2Proof.Machine.execBobbinDeq p q s
  | .bobbinPeek p q => Sys2Proof.Machine.execBobbinPeek p q s
  | .bobbinOcc p q => Sys2Proof.Machine.execBobbinOcc p q s
  | .bobbinOpLand p err => Sys2Proof.Machine.execBobbinOpLand p err s
  | .evcRawChange src => Sys2Proof.Machine.execEvcRawChange src s
  | .evcPulseCapture src => Sys2Proof.Machine.execEvcPulseCapture src s
  | .evcPresent => Sys2Proof.Machine.execEvcPresent s
  | .evcAckSample p => Sys2Proof.Machine.execEvcAckSample p s
  | .evcHoldoffExpire g => Sys2Proof.Machine.execEvcHoldoffExpire g s
  | .evcComplete ini p v => Sys2Proof.Machine.execEvcComplete ini p v s
  | .evcSwset ini src => Sys2Proof.Machine.execEvcSwset ini src s
  | .evcPendClear ini src => Sys2Proof.Machine.execEvcPendClear ini src s
  | .stillFire => Sys2Proof.Machine.execStillFire s
  | .sleepReq ini => Sys2Proof.Machine.execSleepReq ini s
  | .sleepCancel ini => Sys2Proof.Machine.execSleepCancel ini s
  | .sleepEnter => Sys2Proof.Machine.execSleepEnter s
  | .aonWake entry => Sys2Proof.Machine.execAonWake entry s
  | .frameTimerPulse t => Sys2Proof.Machine.execFrameTimerPulse t s
  | .chEnSet ini c => Sys2Proof.Machine.execChEnSet ini c s
  | .chEnClear ini c => Sys2Proof.Machine.execChEnClear ini c s
  | .chArm ini c => Sys2Proof.Machine.execChArm ini c s
  | .chDisarm ini c => Sys2Proof.Machine.execChDisarm ini c s
  | .chSwtrig ini c => Sys2Proof.Machine.execChSwtrig ini c s
  | .spindleTrigger line => Sys2Proof.Machine.execSpindleTrigger line s
  | .spindleReadIssue => Sys2Proof.Machine.execSpindleReadIssue s
  | .spindleReadResponse c r => Sys2Proof.Machine.execSpindleReadResponse c r s
  | .spindleWriteIssue => Sys2Proof.Machine.execSpindleWriteIssue s
  | .spindleWriteResponse c r => Sys2Proof.Machine.execSpindleWriteResponse c r s
  | .respTimeout c => Sys2Proof.Machine.execRespTimeout c s
  | .restartHi ini c v => Sys2Proof.Machine.execRestartHi ini c v s
  | .spindleChQuiesceEnd c => Sys2Proof.Machine.execSpindleChQuiesceEnd c s
  | .ctxRead ini h => Sys2Proof.Machine.execCtxRead ini h s
  | .ctxWrite ini h => Sys2Proof.Machine.execCtxWrite ini h s
  | .doorbellEnq ini h port v => Sys2Proof.Machine.execDoorbellEnq ini h port v s
  | .doorbellConsume ini h port v => Sys2Proof.Machine.execDoorbellConsume ini h port v s
  | .hueReset ini h => Sys2Proof.Machine.execHueReset ini h s
  | .hueResetDone h => Sys2Proof.Machine.execHueResetDone h s
  | .seqStart h words => Sys2Proof.Machine.execSeqStart h words s
  | .seqCancel h words => Sys2Proof.Machine.execSeqCancel h words s
  | .seqCancelAll h words => Sys2Proof.Machine.execSeqCancelAll h words s
  | .seqReservedOpcode h words => Sys2Proof.Machine.execSeqReservedOpcode h words s
  | .playerPrefetchRead pl ok0 ok1 => Sys2Proof.Machine.execPlayerPrefetchRead pl ok0 ok1 s
  | .readyTimeout slot => Sys2Proof.Machine.execReadyTimeout slot s
  | .playerAdvance => Sys2Proof.Machine.execPlayerAdvance s
  | .logEvent e => Sys2Proof.Machine.execLogEvent e s
  | .logWrite err => Sys2Proof.Machine.execLogWrite err s
  | .logRetry err => Sys2Proof.Machine.execLogRetry err s
  | .lostRecordWrite => Sys2Proof.Machine.execLostRecordWrite s
  | .rxPacket pkt => Sys2Proof.Machine.execRxPacket pkt s
  | .streamEnWrite ini tx stream en => Sys2Proof.Machine.execStreamEnWrite ini tx stream en s
  | .igmpQuery net version => Sys2Proof.Machine.execIgmpQuery net version s
  | .arpRequest net ip => Sys2Proof.Machine.execArpRequest net ip s
  | .sfpLinkChange net up => Sys2Proof.Machine.execSfpLinkChange net up s
  | .ptpSyncRx src offset freq => Sys2Proof.Machine.execPtpSyncRx src offset freq s
  | .ptpDelayRespRx src delay => Sys2Proof.Machine.execPtpDelayRespRx src delay s
  | .ptpDelayReqTx net => Sys2Proof.Machine.execPtpDelayReqTx net s
  | .ptpAnnounceRx a => Sys2Proof.Machine.execPtpAnnounceRx a s
  | .ptpAnnounceTimeout net => Sys2Proof.Machine.execPtpAnnounceTimeout net s
  | .ptpSyncTx net => Sys2Proof.Machine.execPtpSyncTx net s
  | .ptpHoldoverExpire => Sys2Proof.Machine.execPtpHoldoverExpire s
  | .ptpStepReq ini => Sys2Proof.Machine.execPtpStepReq ini s
  | .supWindowEnd k => Sys2Proof.Machine.execSupWindowEnd k s
  | .supPublish k => Sys2Proof.Machine.execSupPublish k s
  | .nightStart ini => Sys2Proof.Machine.execNightStart ini s
  | .nightAbort ini => Sys2Proof.Machine.execNightAbort ini s
  | .nightGroupBegin g => Sys2Proof.Machine.execNightGroupBegin g s
  | .nightLevelSet g => Sys2Proof.Machine.execNightLevelSet g s
  | .nightStepEnd g step => Sys2Proof.Machine.execNightStepEnd g step s
  | .nightGroupEnd g => Sys2Proof.Machine.execNightGroupEnd g s
  | .nightPublish k => Sys2Proof.Machine.execNightPublish k s
  | .nightWindowEnd => Sys2Proof.Machine.execNightWindowEnd s
  | .adopt ini => Sys2Proof.Machine.execAdopt ini s
  | .load ini => Sys2Proof.Machine.execLoad ini s
  | .passStart ini => Sys2Proof.Machine.execPassStart ini s
  | .passAbort ini => Sys2Proof.Machine.execPassAbort ini s
  | .tagLaneAssign => Sys2Proof.Machine.execTagLaneAssign s
  | .tagDownlinkStart lane => Sys2Proof.Machine.execTagDownlinkStart lane s
  | .enumStart lane => Sys2Proof.Machine.execEnumStart lane s
  | .ping lane addr => Sys2Proof.Machine.execPing lane addr s
  | .readPage lane page addr => Sys2Proof.Machine.execReadPage lane page addr s
  | .readPageId lane page id => Sys2Proof.Machine.execReadPageId lane page id s
  | .writePage lane page addr => Sys2Proof.Machine.execWritePage lane page addr s
  | .enumBurstEnd lane line => Sys2Proof.Machine.execEnumBurstEnd lane line s
  | .tagReplyRx lane line => Sys2Proof.Machine.execTagReplyRx lane line s
  | .tagReplyTimeout lane => Sys2Proof.Machine.execTagReplyTimeout lane s
  | .tagWriteDue => Sys2Proof.Machine.execTagWriteDue s
  | .wearStep => Sys2Proof.Machine.execWearStep s
  | .modelCommit ini => Sys2Proof.Machine.execModelCommit ini s
  | .wearRecordCommit ini => Sys2Proof.Machine.execWearRecordCommit ini s
  | .comparatorMismatch p fault more port plyB => Sys2Proof.Machine.execComparatorMismatch p fault more port plyB s
  | .plyReset p => Sys2Proof.Machine.execPlyReset p s
  | .injectionEnd p silent => Sys2Proof.Machine.execInjectionEnd p silent s
  | .resyncCopyComplete p => Sys2Proof.Machine.execResyncCopyComplete p s
  | .resyncTimeout p => Sys2Proof.Machine.execResyncTimeout p s
  | .quarRelease ini p => Sys2Proof.Machine.execQuarRelease ini p s
  | .pairReset ini p => Sys2Proof.Machine.execPairReset ini p s
  | .dbgHalt ini p => Sys2Proof.Machine.execDbgHalt ini p s
  | .dbgResume ini p => Sys2Proof.Machine.execDbgResume ini p s
  | .dbgStep ini p => Sys2Proof.Machine.execDbgStep ini p s
  | .dbgRead ini p => Sys2Proof.Machine.execDbgRead ini p s
  | .dbgWrite ini p => Sys2Proof.Machine.execDbgWrite ini p s
  | .helloRx lseq h => Sys2Proof.Machine.execHelloRx lseq h s
  | .beatRx lseq sample state tick => Sys2Proof.Machine.execBeatRx lseq sample state tick s
  | .linkRx msg acked lanes => Sys2Proof.Machine.execLinkRx msg acked lanes s
  | .inPktRx lseq stream net frame ts payload => Sys2Proof.Machine.execInPktRx lseq stream net frame ts payload s
  | .inTdmRx lseq port frame words => Sys2Proof.Machine.execInTdmRx lseq port frame words s
  | .inDigestRx lseq frame digest => Sys2Proof.Machine.execInDigestRx lseq frame digest s
  | .changeFwdRx lseq op hank => Sys2Proof.Machine.execChangeFwdRx lseq op hank s
  | .changeRx lseq c => Sys2Proof.Machine.execChangeRx lseq c s
  | .sealRx lseq frame num => Sys2Proof.Machine.execSealRx lseq frame num s
  | .sealAckRx lseq frame => Sys2Proof.Machine.execSealAckRx lseq frame s
  | .shadowRx lseq frame words => Sys2Proof.Machine.execShadowRx lseq frame words s
  | .hashRx lseq frame port index hash => Sys2Proof.Machine.execHashRx lseq frame port index hash s
  | .sweepRx lseq frame p words => Sys2Proof.Machine.execSweepRx lseq frame p words s
  | .bulkRx lseq addr block => Sys2Proof.Machine.execBulkRx lseq addr block s
  | .bulkFwdRx lseq addr data => Sys2Proof.Machine.execBulkFwdRx lseq addr data s
  | .stateRx lseq state hold silence => Sys2Proof.Machine.execStateRx lseq state hold silence s
  | .apdinRetxTimeout => Sys2Proof.Machine.execApdinRetxTimeout s
  | .apdinRxSilence => Sys2Proof.Machine.execApdinRxSilence s
  | .apdinLaneLoss lane => Sys2Proof.Machine.execApdinLaneLoss lane s
  | .witnessPacketRx => Sys2Proof.Machine.execWitnessPacketRx s
  | .splitBrainTimeout => Sys2Proof.Machine.execSplitBrainTimeout s
  | .wdogKick ini => Sys2Proof.Machine.execWdogKick ini s
  | .watchdogExpire => Sys2Proof.Machine.execWatchdogExpire s
  | .quiet ini => Sys2Proof.Machine.execQuiet ini s
  | .quietHold ini => Sys2Proof.Machine.execQuietHold ini s
  | .releaseHold ini => Sys2Proof.Machine.execReleaseHold ini s
  | .join ini => Sys2Proof.Machine.execJoin ini s
  | .joinTimeout => Sys2Proof.Machine.execJoinTimeout s
  | .powerGood ms => Sys2Proof.Machine.execPowerGood ms s
  | .quickTestEnd sigs => Sys2Proof.Machine.execQuickTestEnd sigs s
  | .ptpInitialStep ns => Sys2Proof.Machine.execPtpInitialStep ns s
  | .moduleReset slotB => Sys2Proof.Machine.execModuleReset slotB s
  | .run ini => Sys2Proof.Machine.execRun ini s
  | .bistTestEnd index sig => Sys2Proof.Machine.execBistTestEnd index sig s
  | .shutdown ini => Sys2Proof.Machine.execShutdown ini s
  | .shutdownGroupEnd => Sys2Proof.Machine.execShutdownGroupEnd s
  | .standby ini => Sys2Proof.Machine.execStandby ini s
  | .standbyEntryComplete => Sys2Proof.Machine.execStandbyEntryComplete s
  | .wake ini => Sys2Proof.Machine.execWake ini s
  | .wakeRestore => Sys2Proof.Machine.execWakeRestore s
  | .supplyInputLoss b => Sys2Proof.Machine.execSupplyInputLoss b s
  | .supplyBothLost => Sys2Proof.Machine.execSupplyBothLost s
  | .supplyRecovery b => Sys2Proof.Machine.execSupplyRecovery b s
  | .holdupEnd => Sys2Proof.Machine.execHoldupEnd s
  | .overtempTrip => Sys2Proof.Machine.execOvertempTrip s
  | .logPersistCopy => Sys2Proof.Machine.execLogPersistCopy s
  | .norErase ini => Sys2Proof.Machine.execNorErase ini s
  | .norProgram ini => Sys2Proof.Machine.execNorProgram ini s
  | .itemWrite ini => Sys2Proof.Machine.execItemWrite ini s
  | .itemDelete ini => Sys2Proof.Machine.execItemDelete ini s
  | .logFlush ini => Sys2Proof.Machine.execLogFlush ini s
  | .storCmdDone ok => Sys2Proof.Machine.execStorCmdDone ok s
  | .contactReading n ohms => Sys2Proof.Machine.execContactReading n ohms s
  | .rs485CharRx port char parityErr framingErr brk => Sys2Proof.Machine.execRs485CharRx port char parityErr framingErr brk s
  | .rs485IdleClose port => Sys2Proof.Machine.execRs485IdleClose port s
  | .rs485TxEntry port => Sys2Proof.Machine.execRs485TxEntry port s
  | .relOutWrite ini v => Sys2Proof.Machine.execRelOutWrite ini v s
  | .relOvercurrent n => Sys2Proof.Machine.execRelOvercurrent n s
  | .relMismatch n => Sys2Proof.Machine.execRelMismatch n s
  | .hankRequest r => Sys2Proof.Machine.execHankRequest r s
  | .hankCommittedReply h => Sys2Proof.Machine.execHankCommittedReply h s
  | .keyCommit ini keepSeq => Sys2Proof.Machine.execKeyCommit ini keepSeq s
  | .keyRevoke ini => Sys2Proof.Machine.execKeyRevoke ini s
  | .chtInval ini index => Sys2Proof.Machine.execChtInval ini index s
  | .invalAll ini => Sys2Proof.Machine.execInvalAll ini s
  | .stagingCommit ini h => Sys2Proof.Machine.execStagingCommit ini h s
  | .arm ini both => Sys2Proof.Machine.execArm ini both s
  | .cancel ini both => Sys2Proof.Machine.execCancel ini both s
  | .doneCpn ini p v => Sys2Proof.Machine.execDoneCpn ini p v s
  | .softRst ini b => Sys2Proof.Machine.execSoftRst ini b s
  | .softRstComplete b => Sys2Proof.Machine.execSoftRstComplete b s
  | .enClear ini b => Sys2Proof.Machine.execEnClear ini b s
  | .enSet ini b => Sys2Proof.Machine.execEnSet ini b s
  | .quiesceComplete b => Sys2Proof.Machine.execQuiesceComplete b s
  | .quiesceTimeout b => Sys2Proof.Machine.execQuiesceTimeout b s
  | .errCodeWrite ini b v => Sys2Proof.Machine.execErrCodeWrite ini b v s
  | .counterClear ini a => Sys2Proof.Machine.execCounterClear ini a s
  | .timestampLowRead ini a => Sys2Proof.Machine.execTimestampLowRead ini a s
  | .registerWrite ini a data bytes => Sys2Proof.Machine.execRegisterWrite ini a data bytes s
  | .extResponseTimeout p => Sys2Proof.Machine.execExtResponseTimeout p s
  | .apdinLinkUp lanes => Sys2Proof.Machine.execApdinLinkUp lanes s

end Sys2Proof.Machine
end

