-- ==== Sys2Proof/Safety.lean ====
section
/-! DEFINITION. What counts as a good state, and the ways claims speak about the machine. -/

namespace Sys2Proof.Safety

open Sys2Proof.Machine

/-- The ownership line is low exactly in OWNER and ALONE, and the heartbeat runs exactly in OWNER, PARTNER and ALONE
(R387, R389). -/
def roleOk (r : Role) : Bool := r.ownLow == ownsTdm r.state && r.beating == isLive r.state

/-- Memory has its canonical form: addresses rising, no byte that an unlisted address reads as. -/
def memOk (d : Dev) : Bool := twf memReset d.mem

/-- The register file has its canonical form. -/
def regsOk (d : Dev) : Bool := twf regReset d.regs

/-- `exec` of the command answers a next state, and that state has the property. -/
def Ends (c : Instr) (s : State) (q : State → Prop) : Prop := ∃ t, exec c s = .next t ∧ q t

/-- The device as the next bundle of pair `p` meets it: its event entry over, skip loops resolved, synchronised writes
and results due by now in place (R111, R123, R130, R183). -/
def met (p : Nat) (d : Dev) : Dev :=
  settle p (onCore p (fun c => c.syncDue c.issued) (atIssue p d))

/-- Pair `p` as its next bundle meets it. -/
@[irreducible] def metCore (p : Nat) (d : Dev) : Core := Machine.core (met p d) p

/-- Pair `p` can issue: the module is on, the pair runs, and no WAIT, FENCE or entry holds it (R96, R176, R206). -/
def canIssue (s : State) (p : Nat) : Bool := awake s.dev && running s.dev p && unheld (Machine.core s.dev p)

/-- Pair `p` issues a bundle whose one move is `v` to `port`, without a fault or a stall (R106, R115, R171), its loads
correcting `ecc` errors (R164). -/
def issuesEcc (s : State) (p port : Nat) (v : Word) (sat : Bool) (ecc : Nat) : Bool :=
  canIssue s p && (lsuFault (metCore p s.dev) (oneMove port v sat)).isNone &&
    !stallsSb (met p s.dev) (metCore p s.dev) (oneMove port v sat) &&
    lsuCorrects (metCore p s.dev) (oneMove port v sat) == ecc

/-- Pair `p` issues a bundle whose one move is `v` to `port`, without a fault, a stall or a corrected error. -/
def issues (s : State) (p port : Nat) (v : Word) (sat : Bool) : Bool := issuesEcc s p port v sat 0

/-- After `t`, an effect triggered by the bundle issued in `s` is on its way, for bundles from the `k`-th after it
(R111). -/
def Sent (s t : State) (p k : Nat) (e : Eff) : Prop :=
  ⟨(metCore p s.dev).issued, (metCore p s.dev).issued + k, e⟩ ∈ (Machine.core t.dev p).pipe

/-- What port `id` of pair `p` holds as the next bundle meets it. -/
def opnd (s : State) (p id : Nat) : Word := (metCore p s.dev).port id

/-- The result `v` of the unit whose ports start at `base` is on its way with delay `k`: to RES and, if DST names a
register, to that register (R100), with the other effects named and no more. -/
def ResultTo (s t : State) (p base k : Nat) (v : Word) (more : List Eff := []) : Prop :=
  let c := metCore p s.dev
  let dst := (opnd s p base).toNat
  let effects := [Eff.port (base + 1) v] ++ (if dstReg dst then [Eff.port dst v] else []) ++ more
  (Machine.core t.dev p).pipe = c.pipe ++ effects.map (fun e => ⟨c.issued, c.issued + k, e⟩)

/-- A 32-bit result of the exact value `x`: clamped or wrapped, then sign-extended (R136, R145). -/
def narrow32 (sat : Bool) (x : Int) : Word :=
  (BitVec.ofInt 32 (if sat then max (-2147483648) (min x 2147483647) else x)).signExtend 64

/-- A 64-bit result of the exact value `x`: clamped or wrapped (R145). -/
def narrow64 (sat : Bool) (x : Int) : Word :=
  BitVec.ofInt 64 (if sat then max (-9223372036854775808) (min x 9223372036854775807) else x)

/-- The low half of a word, signed (R134, R136). -/
def lo (w : Word) : Int := (w.setWidth 32).toInt

/-- The high half of a word, signed (R134). -/
def hi (w : Word) : Int := (w.extractLsb' 32 32).toInt

/-- 1 or 0. -/
def ofBool (b : Bool) : Word := if b then 1 else 0

/-- A port that the issue of a bundle itself may change: CYCLE, ISSUED, the counters of stalls and branches, and the
states of the loop levels (R126, R183). -/
def bookkeeping (id : Nat) : Bool :=
  (decide (0xEE ≤ id) && decide (id ≤ 0xF4)) || id == 0x3CC || id == 0x3D4 || id == 0x3DC

/-- ECC_CORR_COUNT of pair `p` has counted `n` corrected errors (R164, R370). -/
def Corrected (s t : State) (p n : Nat) : Prop :=
  rd t.dev (plyEccCorrCount p) = min (rd s.dev (plyEccCorrCount p) + n) 0xFFFFFFFF

/-- The errors that the write-back of the line at data-cache place `k` corrects (R370). -/
def backed (c : Core) (k : Nat) : Nat :=
  match tget (fun _ => none) c.dcache k with
  | some l => if l.dirty then ((c.upsetsIn (0x80000 + 64 * k) 64).filter (fun u => !u)).length else 0
  | none => 0

/-- The errors that an EXT operation corrects as it writes a line back: of the line it cleans or, where a store misses, of the
line replaced (R174, R370). -/
def opCorrects (s : State) (p port : Nat) (v : Word) : Nat :=
  let c := metCore p s.dev
  let a := v.toNat % 2 ^ 40
  if port = 0x418 ∨ port = 0x41A then c.corrected + (match c.dFind a with | some (k, _) => backed c k | none => 0)
  else if port = 0x419 then c.corrected
  else if (port = 0x413 ∧ a % 4 = 0 ∨ port = 0x414 ∧ a % 8 = 0) ∧ c.attr a = 2 ∧ c.dFind a = none then
    c.corrected + backed c (c.dVictim a (freshVal (met p s.dev)))
  else 0

/-- What an operation of pair `p` leaves alone when it is triggered: the queue, the twin role, every register of the
pages but ECC_CORR_COUNT of the pair, memory, every other pair, and of its own pair every register, operand and status port but the issue's own, the
accumulators, the save slots, the regions and the synchronised writes. -/
def Kept (s t : State) (p : Nat) : Prop :=
  t.pending = s.pending ∧ t.role = s.role ∧
    (∀ off, off ≠ (plyEccCorrCount p).off → rdw t.dev off = rdw s.dev off) ∧ t.dev.mem = (met p s.dev).mem ∧
    (∀ q, q ≠ p → Machine.core t.dev q = Machine.core s.dev q) ∧
    (∀ id, bookkeeping id = false → (Machine.core t.dev p).port id = (metCore p s.dev).port id) ∧
    (Machine.core t.dev p).acc = (metCore p s.dev).acc ∧ (Machine.core t.dev p).save = (metCore p s.dev).save ∧
    (Machine.core t.dev p).regions = (metCore p s.dev).regions ∧ (Machine.core t.dev p).sync = (metCore p s.dev).sync

/-- An effect that the operation at `port` may put on its way, with `v` moved: the results, flags, accumulators and stores
that its unit's chapter names, and nothing else (R99, R100, R138, R143, R144, R156, R166 to R169, R186). -/
def mayLand (s : State) (p port : Nat) (v : Word) : Eff → Bool
  | .port id _ =>
    let base := unitBase port
    let o := port - base
    let dst := (opnd s p base).toNat
    let unit := decide (0x100 ≤ port) && decide (port < 0x380)
    let alu := decide (0x280 ≤ port) && decide (port < 0x300)
    let lsu := decide (0x200 ≤ port) && decide (port < 0x280)
    let mode := v.toNat / 1024 % 4
    (unit && (id == base + 1 || (id == dst && dstReg dst))) ||
    (alu && decide (0xC ≤ o) && decide (o ≤ 0xF) && id == 0xD0) ||
    (lsu && ((o == 0x17 && decide (dst < 0x80) && id / 2 == dst / 2) || (o == 0x18 && decide (dst < 0x80) && id / 4 == dst / 4) ||
      (o == 0x19 && id / 4 == v.toNat / 2 ^ 19 % 32) ||
      (o != 0x19 && o != 0x26 && (mode == 1 || mode == 2) && id == 0x80 + v.toNat % 32))) ||
    (decide (0x3C8 ≤ port) && decide (port < 0x3E0) && id == port)
  | .acc u k _ _ => decide (0x100 ≤ port) && decide (port < 0x200) && u == (port - 0x100) / 64 && k == port % 4
  | .stat u _ => decide (0x100 ≤ port) && decide (port < 0x200) && u == (port - 0x100) / 64
  | .statClear u => port == 0x105 + 64 * u
  | .flags _ => decide (0x340 ≤ port) && decide (port < 0x380)
  | .fstat _ => port == 0xE1
  | .store u _ _ => decide (0x220 ≤ port) && decide (port < 0x280) && u == (port - 0x200) / 64

/-- The number of leading zeros of `x` in a field of `w` bits is `n` (R144). -/
def LeadingZeros (w n x : Nat) : Prop := n ≤ w ∧ x < 2 ^ (w - n) ∧ (n < w → 2 ^ (w - n - 1) ≤ x)

/-! ### Divider and FPU -/

/-- The cycles of a division (R151): `wide` of 64 bits, `ct` in constant-time mode, of magnitudes `x` and `y`, `edge`
the case MIN ÷ −1. -/
def divTime (wide ct : Bool) (x y : Nat) (edge : Bool) : Nat :=
  if ct then (if wide then 18 else 10)
  else if y = 0 ∨ edge = true then (if wide then 6 else 4)
  else 2 + max (if wide then 4 else 2) ((bitLen x + 1 - bitLen y + 3) / 4)

/-- MODE of pair `p` in the constant-time mode (R126, R151). -/
def constTime (s : State) (p : Nat) : Bool := (opnd s p 0xE0).getLsbD 1

/-- MODE.RM of pair `p` (R154). -/
def roundMode (s : State) (p : Nat) : Nat := (opnd s p 0xE0).toNat / 4 % 4

/-- A division by `p` is in progress (R148): its destination, its value, and the cycle it lands in. -/
def Divides (s t : State) (p : Nat) (v : Word) (cycles : Nat) : Prop :=
  (Machine.core t.dev p).div = some ⟨(opnd s p 0x380).toNat, v, 0, (opnd s p 0xEE).toNat + cycles,
    (metCore p s.dev).bound (opnd s p 0x380).toNat⟩

/-- The value of an operand of the FPU in either format (R153). -/
def fpVal (dbl : Bool) (w : Word) : Fp := unpack (fmtOf dbl) (if dbl then w.toNat else w.toNat % 2 ^ 32)

/-- A result of the FPU with its flags (R100, R153, R156). -/
def FpTo (s t : State) (p k : Nat) (v : Word) (flags : Nat) : Prop :=
  ResultTo s t p 0x340 k v (if flags = 0 then [] else [.flags flags])

/-- A result pattern of the FPU with its flags. -/
def FpPat (s t : State) (p k : Nat) (r : Nat × Nat) : Prop := FpTo s t p k (BitVec.ofNat 64 r.1) r.2

/-- A result of 32 bits whose upper half the manual does not give (free, log entry of `Config.fcvtHigh`). -/
def FpInt (s t : State) (p k : Nat) (r : Int × Nat) : Prop :=
  ∃ high : BitVec 32, FpTo s t p k (high ++ BitVec.ofInt 32 r.1) r.2

/-- The number an operand of the FPU stands for; infinities and NaNs stand for none, and read 0 here. -/
def ratOf : Fp → Rat
  | .fin neg m e => (if neg then -1 else 1) * (m : Rat) * 2 ^ e
  | _ => 0

/-- A pattern of the format that stands for a number. -/
def finitePat (f : Fmt) (n : Nat) : Bool :=
  decide (n < 2 * f.signBit) && match unpack f n with | .fin _ _ _ => true | _ => false

/-- The exponent of the unit of the largest finite value. -/
def topUnit (f : Fmt) : Int := f.low + (2 ^ f.ew - 3 : Nat)

/-- The largest finite value of the format. -/
def topValue (f : Fmt) : Rat := (2 ^ (f.mw + 1) - 1 : Nat) * 2 ^ topUnit f

/-- Whether `x` overflows the format (R154): in mode 0 from half a unit above the largest value, toward zero from a whole
unit, and in the directed modes at once on the side they round to. -/
def overflows (f : Fmt) (rm : Nat) (x : Rat) : Prop :=
  let above (neg : Bool) : Prop := match rm with
    | 0 => topValue f + 2 ^ (topUnit f - 1) ≤ x.abs
    | 1 => topValue f + 2 ^ topUnit f ≤ x.abs
    | 2 => if neg then topValue f + 2 ^ topUnit f ≤ x.abs else topValue f < x.abs
    | _ => if neg then topValue f < x.abs else topValue f + 2 ^ topUnit f ≤ x.abs
  above (decide (x < 0))

/-- The pattern `r` is the rounding of `x` by the mode (R154), said by the finite values alone: no finite value lies
nearer (the even one of two as near), or lies between `x` and the result on the side the mode rounds from. -/
def Rounds (f : Fmt) (rm : Nat) (x : Rat) (r : Nat) : Prop :=
  let v := ratOf (unpack f r)
  let others (q : Rat → Nat → Prop) : Prop :=
    finitePat f r = true ∧ ∀ n : Nat, finitePat f n = true → q (ratOf (unpack f n)) n
  match rm with
  | 0 => if topValue f + 2 ^ (topUnit f - 1) ≤ x.abs then r = withSign f (decide (x < 0)) f.infBits
         else others (fun w _ => (x - v).abs ≤ (x - w).abs ∧ (w ≠ v → (x - w).abs = (x - v).abs → r % 2 = 0))
  | 1 => v.abs ≤ x.abs ∧ 0 ≤ v * x ∧ others (fun w _ => w.abs ≤ x.abs → w.abs ≤ v.abs)
  | 2 => if topValue f < x then r = f.infBits else x ≤ v ∧ others (fun w _ => x ≤ w → v ≤ w)
  | _ => if x < -topValue f then r = withSign f true f.infBits else v ≤ x ∧ others (fun w _ => w ≤ x → w ≤ v)

/-- A result and its flags are those of `x`, not zero, rounded once (R154, R156): the sign is that of `x`; OF and NX on
overflow; otherwise NX exactly where the result differs from `x`, and UF only with NX, never from the smallest normal
value up, and always where an inexact result is below it by a unit of the last place there or more. -/
def RoundedTo (f : Fmt) (rm : Nat) (x : Rat) (r : Nat × Nat) : Prop :=
  let v := ratOf (unpack f r.1)
  let least : Rat := 2 ^ (f.low + f.mw)
  Rounds f rm x r.1 ∧ (r.1 / f.signBit % 2 = 1 ↔ x < 0) ∧
  (overflows f rm x → r.2 = 5) ∧
  (¬overflows f rm x →
    (v = x → r.2 = 0) ∧ (v ≠ x → r.2 = 1 ∨ r.2 = 3) ∧ (least ≤ x.abs → r.2 < 2) ∧
    (v ≠ x → x.abs ≤ least - 2 ^ (f.low - 1) → r.2 = 3))

/-- The integer `k` is the rounding of `x` by the mode (R154, R158). -/
def RoundsInt (rm : Nat) (x : Rat) (k : Int) : Prop :=
  match rm with
  | 0 => (x - k).abs ≤ 1 / 2 ∧ ((x - k).abs = 1 / 2 → k % 2 = 0)
  | 1 => (k : Rat).abs ≤ x.abs ∧ x.abs < (k : Rat).abs + 1 ∧ 0 ≤ k * x
  | 2 => (k : Rat) - 1 < x ∧ x ≤ k
  | _ => (k : Rat) ≤ x ∧ x < k + 1

/-- Port of an FPU operation, by its binary32 offset (R153). -/
def fpPort (o : Nat) (dbl : Bool) : Nat := 0x340 + o + (if dbl then 0x10 else 0)

/-! ### Local memory, EXT and the CU -/

/-- The address an addressed LSU operation accesses (R167): An, or An + Mm where MODE is 3. -/
def accessAddr (s : State) (p : Nat) (v : Word) : Nat :=
  let n := v.toNat % 32
  let m := v.toNat / 32 % 32
  let an := (opnd s p (0x80 + n)).toNat
  if v.toNat / 1024 % 4 = 3 then ((an : Int) + ((opnd s p (0xA0 + m)).setWidth 40).toInt).emod (2 ^ 40) |>.toNat else an

/-- The `n` bytes LSU `u` reads at local address `a`, its own stores of earlier bundles included (R111). -/
def localBytes (s : State) (p u a n : Nat) : List Byte := lsuBytes (met p s.dev) p u a n

/-- The little-endian value of the bytes LSU `u` reads at the address of an addressed operation. -/
def localValue (s : State) (p u : Nat) (v : Word) (n : Nat) : Nat := ofLe (localBytes s p u (accessAddr s p v) n)

/-- A loaded word, four bundles away from RES and, if DST names a G register, from it (R111, R166). -/
def Loads (s t : State) (p u : Nat) (w : Word) : Prop :=
  let base := 0x200 + 64 * u
  Sent s t p 4 (.port (base + 1) w) ∧ ((opnd s p base).toNat < 0x80 → Sent s t p 4 (.port (opnd s p base).toNat w))

/-- `k` words loaded from address `a` on, four bundles away from the registers from `r` on (R166, R169). -/
def LoadsGroup (s t : State) (p u a r k : Nat) : Prop :=
  ∀ j, j < k → Sent s t p 4 (.port (r + j) (BitVec.ofNat 64 (ofLe (localBytes s p u (a + 8 * j) 8))))

/-- A store of LSU `u` is two bundles away from memory (R111). -/
def Stores (s t : State) (p u a : Nat) (data : List Byte) : Prop := Sent s t p 2 (.store u a data)

/-- The EXT operation a trigger adds: its destination, the bundle, and the work (R115, R172). -/
def Pushes (s t : State) (p : Nat) (w : ExtWork) : Prop :=
  (Machine.core t.dev p).ext = (metCore p s.dev).ext ++ [⟨(opnd s p 0x400).toNat, (metCore p s.dev).pc, w⟩]

/-- The address a fetch goes to (R117): 40 bits, the lowest six 0. -/
def bundleAt (i : Int) : Nat := (i.emod (2 ^ 40)).toNat / 64 * 64

/-! ### The operation commands of a core -/

/-- The commands that name one operation of a core: the pair, the port they write, the value moved, and S (R97, R117,
R138, R144, R147, R148, R153, R166, R172, R182, R205, R246). -/
def opOf : Instr → Option (Pair × Nat × Word × Bool)
  | .jump p v => some (p, 0x3C0, v, false)
  | .br p v => some (p, 0x3C1, v, false)
  | .call p v => some (p, 0x3C2, v, false)
  | .callr p v => some (p, 0x3C3, v, false)
  | .ret p => some (p, 0x3C4, 0, false)
  | .rti p => some (p, 0x3C5, 0, false)
  | .lcount p lvl v => some (p, 0x3CA + 8 * lvl.val, v, false)
  | .lclr p lvl => some (p, 0x3CB + 8 * lvl.val, 0, false)
  | .lstateWrite p lvl v => some (p, 0x3CC + 8 * lvl.val, v, false)
  | .wait p v => some (p, 0x3E1, v, false)
  | .cmul p c k v sat => some (p, 0x108 + 64 * c.val + k.val, v, sat)
  | .cmulc p c k v sat => some (p, 0x10C + 64 * c.val + k.val, v, sat)
  | .cmac p c k v sat => some (p, 0x110 + 64 * c.val + k.val, v, sat)
  | .cmacc p c k v sat => some (p, 0x114 + 64 * c.val + k.val, v, sat)
  | .cmsc p c k v sat => some (p, 0x118 + 64 * c.val + k.val, v, sat)
  | .cmscc p c k v sat => some (p, 0x11C + 64 * c.val + k.val, v, sat)
  | .qdot p c k v sat => some (p, 0x120 + 64 * c.val + k.val, v, sat)
  | .qdotn p c k v sat => some (p, 0x124 + 64 * c.val + k.val, v, sat)
  | .qset p c k v sat => some (p, 0x128 + 64 * c.val + k.val, v, sat)
  | .clr p c k => some (p, 0x12C + 64 * c.val + k.val, 0, false)
  | .extr p c k sat => some (p, 0x130 + 64 * c.val + k.val, 0, sat)
  | .rawx p c k v => some (p, 0x134 + 64 * c.val + k.val, v, false)
  | .raww p c k v => some (p, 0x138 + 64 * c.val + k.val, v, false)
  | .cmacStatClear p c => some (p, 0x105 + 64 * c.val, 0, false)
  | .add32 p u b sat => some (p, 0x288 + 32 * u.val, b, sat)
  | .add64 p u b sat => some (p, 0x289 + 32 * u.val, b, sat)
  | .sub32 p u b sat => some (p, 0x28A + 32 * u.val, b, sat)
  | .sub64 p u b sat => some (p, 0x28B + 32 * u.val, b, sat)
  | .addx32 p u b => some (p, 0x28C + 32 * u.val, b, false)
  | .addx64 p u b => some (p, 0x28D + 32 * u.val, b, false)
  | .subx32 p u b => some (p, 0x28E + 32 * u.val, b, false)
  | .subx64 p u b => some (p, 0x28F + 32 * u.val, b, false)
  | .and p u b => some (p, 0x290 + 32 * u.val, b, false)
  | .or p u b => some (p, 0x291 + 32 * u.val, b, false)
  | .xor p u b => some (p, 0x292 + 32 * u.val, b, false)
  | .andn p u b => some (p, 0x293 + 32 * u.val, b, false)
  | .shl p u b sat => some (p, 0x294 + 32 * u.val, b, sat)
  | .shr p u b => some (p, 0x295 + 32 * u.val, b, false)
  | .sar p u b => some (p, 0x296 + 32 * u.val, b, false)
  | .sar32 p u b => some (p, 0x297 + 32 * u.val, b, false)
  | .clz32 p u b => some (p, 0x298 + 32 * u.val, b, false)
  | .clz64 p u b => some (p, 0x299 + 32 * u.val, b, false)
  | .cls32 p u b => some (p, 0x29A + 32 * u.val, b, false)
  | .cmpeq p u b => some (p, 0x29B + 32 * u.val, b, false)
  | .cmplt p u b => some (p, 0x29C + 32 * u.val, b, false)
  | .cmpltu p u b => some (p, 0x29D + 32 * u.val, b, false)
  | .min p u b => some (p, 0x29E + 32 * u.val, b, false)
  | .max p u b => some (p, 0x29F + 32 * u.val, b, false)
  | .muls p b => some (p, 0x308, b, false)
  | .mulu p b => some (p, 0x309, b, false)
  | .mulsu p b => some (p, 0x30A, b, false)
  | .mulq p b sat => some (p, 0x30B, b, sat)
  | .mul32 p b sat => some (p, 0x30C, b, sat)
  | .divs32 p b sat => some (p, 0x388, b, sat)
  | .divu32 p b => some (p, 0x389, b, false)
  | .rems32 p b => some (p, 0x38A, b, false)
  | .remu32 p b => some (p, 0x38B, b, false)
  | .divs64 p b sat => some (p, 0x38C, b, sat)
  | .divu64 p b => some (p, 0x38D, b, false)
  | .rems64 p b => some (p, 0x38E, b, false)
  | .remu64 p b => some (p, 0x38F, b, false)
  | .fadd p dbl b => some (p, fpPort 0x08 dbl, b, false)
  | .fsub p dbl b => some (p, fpPort 0x09 dbl, b, false)
  | .fmul p dbl b => some (p, fpPort 0x0A dbl, b, false)
  | .fma p dbl b => some (p, fpPort 0x0B dbl, b, false)
  | .fms p dbl b => some (p, fpPort 0x0C dbl, b, false)
  | .fnma p dbl b => some (p, fpPort 0x0D dbl, b, false)
  | .fmin p dbl b => some (p, fpPort 0x0E dbl, b, false)
  | .fmax p dbl b => some (p, fpPort 0x0F dbl, b, false)
  | .fcmpeq p dbl b => some (p, fpPort 0x10 dbl, b, false)
  | .fcmplt p dbl b => some (p, fpPort 0x11 dbl, b, false)
  | .fcmple p dbl b => some (p, fpPort 0x12 dbl, b, false)
  | .fcmpun p dbl b => some (p, fpPort 0x13 dbl, b, false)
  | .fdiv p dbl b => some (p, fpPort 0x14 dbl, b, false)
  | .fsqrt p dbl b => some (p, fpPort 0x15 dbl, b, false)
  | .fcvtDS p b => some (p, 0x368, b, false)
  | .fcvtSD p b => some (p, 0x369, b, false)
  | .fcvtSW p b => some (p, 0x36A, b, false)
  | .fcvtDW p b => some (p, 0x36B, b, false)
  | .fcvtDL p b => some (p, 0x36C, b, false)
  | .fcvtWS p b => some (p, 0x36D, b, false)
  | .fcvtWD p b => some (p, 0x36E, b, false)
  | .fcvtLD p b => some (p, 0x36F, b, false)
  | .fcvtSQ p b => some (p, 0x370, b, false)
  | .fcvtDQ p b => some (p, 0x371, b, false)
  | .fcvtQS p b => some (p, 0x372, b, false)
  | .fcvtQD p b => some (p, 0x373, b, false)
  | .fstatWrite p v => some (p, 0xE1, v, false)
  | .lsuLd8u p u v => some (p, 0x210 + 64 * u.val, v, false)
  | .lsuLd8s p u v => some (p, 0x211 + 64 * u.val, v, false)
  | .lsuLd16u p u v => some (p, 0x212 + 64 * u.val, v, false)
  | .lsuLd16s p u v => some (p, 0x213 + 64 * u.val, v, false)
  | .lsuLd32u p u v => some (p, 0x214 + 64 * u.val, v, false)
  | .lsuLd32s p u v => some (p, 0x215 + 64 * u.val, v, false)
  | .lsuLd64 p u v => some (p, 0x216 + 64 * u.val, v, false)
  | .lsuLd128 p u v => some (p, 0x217 + 64 * u.val, v, false)
  | .lsuLd256 p u v => some (p, 0x218 + 64 * u.val, v, false)
  | .ldqa p u v => some (p, 0x219 + 64 * u.val, v, false)
  | .lsuSt8 p u v => some (p, 0x220 + 64 * u.val, v, false)
  | .lsuSt16 p u v => some (p, 0x221 + 64 * u.val, v, false)
  | .lsuSt32 p u v => some (p, 0x222 + 64 * u.val, v, false)
  | .lsuSt64 p u v => some (p, 0x223 + 64 * u.val, v, false)
  | .lsuSt128 p u v => some (p, 0x224 + 64 * u.val, v, false)
  | .lsuSt256 p u v => some (p, 0x225 + 64 * u.val, v, false)
  | .stqa p u v => some (p, 0x226 + 64 * u.val, v, false)
  | .extLd32u p a => some (p, 0x410, a, false)
  | .extLd32s p a => some (p, 0x411, a, false)
  | .extLd64 p a => some (p, 0x412, a, false)
  | .extSt32 p a => some (p, 0x413, a, false)
  | .extSt64 p a => some (p, 0x414, a, false)
  | .dclean p a => some (p, 0x418, a, false)
  | .dinv p a => some (p, 0x419, a, false)
  | .dcleaninv p a => some (p, 0x41A, a, false)
  | .dcleanR p a => some (p, 0x41B, a, false)
  | .dinvR p a => some (p, 0x41C, a, false)
  | .dcleaninvR p a => some (p, 0x41D, a, false)
  | .dcleanAll p => some (p, 0x41E, 0, false)
  | .dcleaninvAll p => some (p, 0x41F, 0, false)
  | .iinv p a => some (p, 0x420, a, false)
  | .iinvR p a => some (p, 0x421, a, false)
  | .iinvAll p => some (p, 0x422, 0, false)
  | .ifill p a => some (p, 0x423, a, false)
  | .fence p => some (p, 0x428, 0, false)
  | .bobbinEnq p q => some (p, 0x450, q, false)
  | .bobbinDeq p q => some (p, 0x451, q, false)
  | .bobbinPeek p q => some (p, 0x452, q, false)
  | .bobbinOcc p q => some (p, 0x453, q, false)
  | _ => none

/-- The addressed and absolute operations of an LSU: pair, unit, port offset, value (R166). -/
def lsuOf (i : Instr) : Option (Pair × Nat × Nat × Word) :=
  match opOf i with
  | some (p, port, v, _) =>
    if 0x200 ≤ port ∧ port < 0x280 then some (p, (port - 0x200) / 64, (port - 0x200) % 64, v) else none
  | none => none

/-- The address and the size of an LSU access by its offset (R166, R167, R169). -/
def lsuSpan (s : State) (p o : Nat) (v : Word) : Nat × Nat :=
  (if o = 0x19 ∨ o = 0x26 then v.toNat % 2 ^ 19 else accessAddr s p v, lsuSize o)

/-- Pair `p` can issue, and `b` is the bundle it fetches (R118), with no error that cannot be corrected (R370). -/
def fetched (s : State) (p b : Nat) : Bool :=
  let c := Machine.core (atIssue p s.dev) p
  canIssue s p && c.miss.isNone && c.fetch == some b && !(c.iUpsets c.pc).contains true

/-- A fault of pair `p` at level below 15 is entered (R107, R131): the cause, the faulting bundle, level 15, the fault
vector, and slot 15 with the return address. -/
def Faulted (s t : State) (p code reason : Nat) (faultPc back : Nat) : Prop :=
  ((Machine.core t.dev p).port 0xEC).toNat % 0x10000 = code + reason * 0x100 ∧
    (Machine.core t.dev p).port 0xED = BitVec.ofNat 64 faultPc ∧ (Machine.core t.dev p).level = 15 ∧
    (Machine.core t.dev p).pc = bundleAt ((Machine.core t.dev p).port 0xEB).toNat ∧
    (Machine.core t.dev p).saved 30 = BitVec.ofNat 64 back

/-! ### Register commands -/

/-- The module is on, and a 32-bit write of `v` at register offset `off` by the initiator is performed: no rule refuses it,
and its block is not in a soft reset (R38, R46, R47, R57, R59). -/
def accepted (s : State) (ini : Initiator) (off v : Nat) : Bool :=
  awake s.dev && judgeWrite s.dev ini (0x40000000 + off) v == 0 &&
    (match placeOf (0x40000000 + off) with
      | .page b _ => !flag s.dev (hdrSoftRst b)
      | _ => true)

/-- `exec` of the command answers a next state with the queue and the twin role as they were, and its device has the
property. -/
def Does (c : Instr) (s : State) (q : Dev → Prop) : Prop := ∃ d, exec c s = .next { s with dev := d } ∧ q d

/-- A register of a block's own, by its offset in the block, that a write sets and nothing else: it is no command, it acts on
nothing at once, and no control change carries it (R16, R28, R29). -/
def heldOnly (b : Blk) (o : Nat) : Bool :=
  let in_ (lo hi : Nat) : Bool := decide (lo ≤ o) && decide (o < hi)
  decide (0x40 ≤ o) &&
  (match b with
  | .gw => !in_ 0x4C 0x70
  | .hue _ => o != 0x84 && o != 0xA4
  | .evc => !in_ 0x40 0x70 && !in_ 0x1040 0x5240 && !in_ 0x6400 0x6500 && !in_ 0x7040 0x7100 && o != 0x7140
  | .spindle => (match chanOf (blkBase b + o) with
    | some _ => let r := (o % 0x1000 - 0x40) % 0x80; r != 0 && r != 0x20 && r != 0x24
    | none => true)
  | .cht => o != 0x44 && o != 0x58 && !in_ 0x80 0xB0 &&
      !((stageSlotOf (blkBase b + o)).isSome && (o % 0x1000 - 0x40) % 0x100 == 0x84)
  | .bobbin => !in_ 0x1040 0x10C0
  | .seq => !in_ 0x5040 0x5440
  | .ply _ => o != 0x78 && o != 0x7C
  | .strm n => o != 0x64 && !(n != 0 && (o == 0x88 || o == 0x8C || in_ 0x100 0x200)) && (decide (o < 0x2040) || (o % 0x1000 - 0x40) % 0x20 != 0)
  | .ptp => o != 0x40 && o != 0x44 && o != 0x68
  | .sup => decide (0x3000 ≤ o) && o != 0x3144
  | .tag => !in_ 0x40 0x4C
  | .wear => !in_ 0x40 0x4C && !in_ 0x100 0x400 && o != 0x1084
  | .twin => o != 0x48 && o != 0x50
  | .bist => o != 0x40
  | .stor => o != 0x50
  | .cont => !in_ 0x40 0x48
  | .rel => o != 0x40
  | _ => true)

/-- The commands that the supply and a reset of the module obey, which a module that is off obeys too (R424, R428). -/
def ofSupply : Instr → Bool
  | .powerGood _ | .moduleReset _ | .supplyInputLoss _ | .supplyBothLost | .supplyRecovery _ | .holdupEnd
  | .overtempTrip => true
  | _ => false

/-- An error of block `b` captured (R43, R44): it counts, and the first since the last clear leaves its code and sets
ERROR. -/
def Captured (b : Blk) (code : Nat) (d t : Dev) : Prop :=
  rd t (hdrErrCount b) = min (rd d (hdrErrCount b) + 1) (2 ^ 32 - 1) ∧
    (rd d (hdrCode b) = 0 → rd t (hdrCode b) = code ∧ flag t (hdrError b) = true)

/-- The control change that a register command asks for, with its initiator, the register offset and the value written
(R79, R81, R83, R84, R94, R244, R252, R257, R295, R302, R324, R329 to R331, R353, R355, R360, R381, R405, R424, R425,
R427). -/
def changeOf (s : State) : Instr → Option (Initiator × Nat × Nat × ChangeOp)
  | .chtInval i x => some (i, 0x50044, x.toNat, .inval x)
  | .invalAll i => some (i, 0x50044, 0x10000, .invalAll)
  | .stagingCommit i h => some (i, 0x520C4 + h.val / 8 * 0x1000 + h.val % 8 * 0x100, 1,
      .staging h (BitVec.ofNat 9 (rd s.dev (slotIndex h.val)))
        ((List.range 32).map (fun j => rdw s.dev (0x52040 + h.val / 8 * 0x1000 + h.val % 8 * 0x100 + 4 * j))))
  | .arm i both => some (i, 0x50058, 1 + (if both then 16 else 0),
      .arm (flag s.dev modSlotB) both (BitVec.ofNat 64 (rd64 s.dev chtSwitchFrameLo chtSwitchFrameHi)) (nextBank s.dev))
  | .cancel i both => some (i, 0x50058, 2 + (if both then 16 else 0), .cancel (flag s.dev modSlotB) both)
  | .ctxWrite i h => some (i, 0x100A4 + h.val * 0x1000, 2,
      .ctxWrite h (BitVec.ofNat 15 (rd s.dev (hueCtxSel h.val)))
        ((List.range 8).map (fun j => rdw s.dev (0x100C0 + h.val * 0x1000 + 4 * j))))
  | .hueReset i h => some (i, 0x10084 + h.val * 0x1000, 1, .hueReset h)
  | .doorbellEnq i h p v => some (i, bellOff h p + 0x40, v.toNat,
      .dbEnq h p (BitVec.ofNat 15 v.toNat) ((List.range 16).map (fun j => stagedGet s.dev h.val p.toNat j)))
  | .doorbellConsume i h p v =>
    if 0 < v.toNat % 2 ^ 17 ∧ v.toNat % 2 ^ 17 ≤ 65536 then
      some (i, bellOff h p + 0x48, v.toNat,
        .dbConsume h p (BitVec.ofNat 15 (stagedGet s.dev h.val p.toNat 16).toNat) (v.toNat % 2 ^ 17))
    else none
  | .ptpStepReq i => some (i, 0x210068, 1, .ptpStep (if s.role.state = .partner then 0 else s.dev.ptp.filt))
  | .nightStart i => some (i, 0x300064, 1, .nightStart)
  | .nightAbort i => some (i, 0x300064, 2, .nightAbort)
  | .load i => some (i, 0x303144, 1, .load (BitVec.ofNat 8 (rd s.dev supStageLine))
      ((List.range 64).map (fun j => rdw s.dev ((supStageData 0).off + 4 * j))))
  | .adopt i => some (i, 0x303144, 2, .adopt ((List.range 6).map (fun j => rdw s.dev ((supAdoptMask 0).off + 4 * j))))
  | .wearRecordCommit i => some (i, 0x321084, 1, .wearRecord (BitVec.ofNat 8 (rd s.dev wearRecLine))
      (BitVec.ofNat 6 (rd s.dev wearRecIndex)) ((List.range 16).map (fun j => rdw s.dev ((wearRecData 0).off + 4 * j))))
  | .pairReset i p => some (i, 0x100078 + p.val * 0x1000, 2, .pairReset p)
  | .shutdown i => some (i, 0x410040, 1, .shutdown)
  | .standby i => some (i, 0x410040, 2, .standby)
  | .wake i => some (i, 0x410040, 4, .wake)
  | .quiet i => some (i, 0x400048, 1, .twinQuiet (flag s.dev modSlotB) false)
  | .quietHold i => some (i, 0x400048, 2, .twinQuiet (flag s.dev modSlotB) true)
  | .releaseHold i => some (i, 0x400048, 4, .twinRelease (flag s.dev modSlotB))
  | .join i => some (i, 0x400048, 8, .twinJoin (flag s.dev modSlotB))
  | .modelCommit i => some (i, 0x320044, putBit (rdw s.dev 0x320044).toNat 16 true, .modelCommit)
  | .passStart i => some (i, 0x310044, putBits (rdw s.dev 0x310044).toNat 1 0 1,
      .passStart ((List.range 6).map (fun j => rdw s.dev ((tagPassMask 0).off + 4 * j))))
  | .passAbort i => some (i, 0x310044, putBits (rdw s.dev 0x310044).toNat 1 0 2, .passAbort)
  | .streamEnWrite i tx n en =>
    let a := if tx then strmTx n.val else strmRx n.val
    if n.val < (if tx then 96 else 128) then
      some (i, a, putBit (rdw s.dev a).toNat 0 en, .streamEn tx n en)
    else none
  | _ => none

/-! ### Bobbins -/

/-- The ring of bobbin `q` is one R242 to R244 allow, bound to nothing, with entries of `n` bytes, the manager runs and can
read the context, and the entry after the last lies outside the context. -/
def ringSound (d : Dev) (q n : Nat) : Bool :=
  let c := rdCtx d q
  bobRunning d && !ctxLost d q && c.en && c.bind == 0 && decide (c.sizeLog ≤ 16) && decide (c.head < 2 * ringSize c) &&
    decide (c.tail < 2 * ringSize c) && decide (occ c ≤ ringSize c) && entryBytes c == n &&
    !overlaps (entryAddr c c.tail) n (ctxBase d + 32 * q) 32

/-- An entry was appended to the ring of bobbin `q` and nothing else in memory changed (R243, R247). -/
def Enqueued (d t : Dev) (q : Nat) (entry : List Byte) : Prop :=
  let c := rdCtx d q
  let a := entryAddr c c.tail
  (∀ i, i < entry.length → rdB t (a + i) = nth entry i 0) ∧
    rdCtx t q = { c with tail := (c.tail + 1) % (2 * ringSize c), rsv := false } ∧
    ∀ x, (x < a ∨ a + entry.length ≤ x) → (x < ctxBase d + 32 * q ∨ ctxBase d + 32 * q + 32 ≤ x) → rdB t x = rdB d x

/-- An EXT operation of pair `p` landed with the value `v`: nothing is left in progress, RES holds `v`, and so does the
register DST names (R115, R172). -/
def ExtLanded (t : Dev) (p dst : Nat) (v : Word) : Prop :=
  (Machine.core t p).ext = [] ∧ (Machine.core t p).port 0x401 = v ∧
    (dstReg dst = true → (Machine.core t p).port dst = v &&& BitVec.ofNat 64 (portMask dst))

/-! ### Twin -/

/-- The LSEQ of a message that is acknowledged (R393, R394). -/
def msgOf : Instr → Option W32
  | .inPktRx l _ _ _ _ _ | .inTdmRx l _ _ _ | .inDigestRx l _ _ | .changeFwdRx l _ _ | .changeRx l _ | .sealRx l _ _
  | .sealAckRx l _ | .shadowRx l _ _ | .hashRx l _ _ _ _ | .sweepRx l _ _ _ | .bulkRx l _ _ | .bulkFwdRx l _ _
  | .stateRx l _ _ _ | .helloRx l _ | .beatRx l _ _ _ => some l
  | _ => none

/-- The link is up, and a message numbered `l` is no copy of one received (R394). -/
def fresh (d : Dev) (l : W32) : Bool := awake d && d.twin.linkUp && !received l d.twin

/-- The twin state changes (R387, R389, R405, R412): to the state and the hold given, with the lines and the heartbeat that
go with it, STATE_CHANGE and LAST_CHANGE_FRAME; the commands that wait stay. -/
def Becomes (s t : State) (st : TwinState) (hold : Bool) : Prop :=
  t.pending = s.pending ∧ t.role.state = st ∧ t.role.hold = hold ∧
    t.role.ownLow = decide (st = .owner ∨ st = .alone) ∧
    t.role.beating = decide (st = .owner ∨ st = .partner ∨ st = .alone) ∧ t.role.beatLevel = s.role.beatLevel ∧
    bit (rd t.dev (hdrEvtFlag .twin)) 0 = true ∧
    rd64 t.dev twinLastChangeFrameLo twinLastChangeFrameHi = s.dev.clk.frame.toNat

/-- A change of a forwarded request is held, as every change before it is (R407). -/
def TakesOver (s t : State) : Prop :=
  Becomes s t .alone false ∧ t.dev.commit.forwarded = [] ∧ (∀ c ∈ s.dev.commit.held, c ∈ t.dev.commit.held) ∧
    ∀ f ∈ s.dev.commit.forwarded, ∃ n, s.dev.commit.count < n ∧ ⟨n, withOffset t.dev f.1, f.2⟩ ∈ t.dev.commit.held

/-- The `n`-byte value of the words of a copy, at byte `i` (R376, R406). -/
def copyByte (words : List Word) (i : Nat) : Byte := BitVec.ofNat 8 ((nth words (i / 8) 0).toNat / 256 ^ (i % 8))

/-- Memory holds the words copied from address `a` on, and is otherwise as it was. -/
def Copied (d t : Dev) (a : Nat) (words : List Word) : Prop :=
  (∀ i, i < 8 * words.length → rdB t (a + i) = copyByte words i) ∧
    ∀ x, (x < a ∨ a + 8 * words.length ≤ x) → rdB t x = rdB d x

end Sys2Proof.Safety
end

