-- ==== Sys2Proof/Certificates/Slice0/Obligations.lean ====
section
/-! DEFINITION. The statements for the provers. -/

open Sys2Proof Sys2Proof.Machine Sys2Proof.Safety

/-! ### The arithmetic units of a core -/

/-- R97, R100, R136, R144 to R146. The sums, differences and the left shift of an ALU complete wherever their bundle
issues, and their result, clamped where S is 1 and wrapped where it is 0, is one bundle away from RES and from the
register DST names. ADDX and SUBX complete wherever their bundle issues: they read P0, and beside their result the
carry or borrow is one bundle away from P0. The logical operations and the right shifts of an ALU. The counts of
leading bits, the compares and the selects of an ALU. An ALU's DST and OPA at reset, and its reserved ports. -/
def Obligations.AluOperations : Prop :=
  (∀ (s : State) (p : Pair) (u : Fin 4) (b : Word) (sat : Bool),
    let a := opnd s p (0x282 + 32 * u.val)
    let res (v : Word) (t : State) := ResultTo s t p (0x280 + 32 * u.val) 1 v
    (issues s p (0x288 + 32 * u.val) b sat = true → Ends (.add32 p u b sat) s (res (narrow32 sat (lo a + lo b)))) ∧
    (issues s p (0x289 + 32 * u.val) b sat = true → Ends (.add64 p u b sat) s (res (narrow64 sat (a.toInt + b.toInt)))) ∧
    (issues s p (0x28A + 32 * u.val) b sat = true → Ends (.sub32 p u b sat) s (res (narrow32 sat (lo a - lo b)))) ∧
    (issues s p (0x28B + 32 * u.val) b sat = true → Ends (.sub64 p u b sat) s (res (narrow64 sat (a.toInt - b.toInt)))) ∧
    (issues s p (0x294 + 32 * u.val) b sat = true →
      Ends (.shl p u b sat) s (res (narrow64 sat (a.toInt * 2 ^ (b.toNat % 64)))))) ∧
  (∀ (s : State) (p : Pair) (u : Fin 4) (b : Word),
    let a := opnd s p (0x282 + 32 * u.val)
    let c := (opnd s p 0xD0).toNat % 2
    let res (v : Word) (carry : Bool) (t : State) :=
      ResultTo s t p (0x280 + 32 * u.val) 1 v [.port 0xD0 (ofBool carry)]
    (issues s p (0x28C + 32 * u.val) b false = true →
      Ends (.addx32 p u b) s (res (narrow32 false (lo a + lo b + c)) (decide (2 ^ 32 ≤ a.toNat % 2 ^ 32 + b.toNat % 2 ^ 32 + c)))) ∧
    (issues s p (0x28D + 32 * u.val) b false = true →
      Ends (.addx64 p u b) s (res (a + b + BitVec.ofNat 64 c) (decide (2 ^ 64 ≤ a.toNat + b.toNat + c)))) ∧
    (issues s p (0x28E + 32 * u.val) b false = true →
      Ends (.subx32 p u b) s (res (narrow32 false (lo a - lo b - c)) (decide (a.toNat % 2 ^ 32 < b.toNat % 2 ^ 32 + c)))) ∧
    (issues s p (0x28F + 32 * u.val) b false = true →
      Ends (.subx64 p u b) s (res (a - b - BitVec.ofNat 64 c) (decide (a.toNat < b.toNat + c))))) ∧
  (∀ (s : State) (p : Pair) (u : Fin 4) (b : Word),
    let a := opnd s p (0x282 + 32 * u.val)
    let res (v : Word) (t : State) := ResultTo s t p (0x280 + 32 * u.val) 1 v
    (issues s p (0x290 + 32 * u.val) b false = true → Ends (.and p u b) s (res (a &&& b))) ∧
    (issues s p (0x291 + 32 * u.val) b false = true → Ends (.or p u b) s (res (a ||| b))) ∧
    (issues s p (0x292 + 32 * u.val) b false = true → Ends (.xor p u b) s (res (a ^^^ b))) ∧
    (issues s p (0x293 + 32 * u.val) b false = true → Ends (.andn p u b) s (res (a &&& ~~~b))) ∧
    (issues s p (0x295 + 32 * u.val) b false = true →
      Ends (.shr p u b) s (res (BitVec.ofNat 64 (a.toNat / 2 ^ (b.toNat % 64))))) ∧
    (issues s p (0x296 + 32 * u.val) b false = true →
      Ends (.sar p u b) s (res (BitVec.ofInt 64 (a.toInt / 2 ^ (b.toNat % 64))))) ∧
    (issues s p (0x297 + 32 * u.val) b false = true →
      Ends (.sar32 p u b) s (res (BitVec.ofInt 64 (lo a / 2 ^ (b.toNat % 32)))))) ∧
  (∀ (s : State) (p : Pair) (u : Fin 4) (b : Word),
    let a := opnd s p (0x282 + 32 * u.val)
    let res (v : Word) (t : State) := ResultTo s t p (0x280 + 32 * u.val) 1 v
    let flip := if b.getLsbD 31 then 2 ^ 32 - 1 - b.toNat % 2 ^ 32 else b.toNat % 2 ^ 32
    (issues s p (0x298 + 32 * u.val) b false = true →
      Ends (.clz32 p u b) s (fun t => ∃ n, LeadingZeros 32 n (b.toNat % 2 ^ 32) ∧ res (BitVec.ofNat 64 n) t)) ∧
    (issues s p (0x299 + 32 * u.val) b false = true →
      Ends (.clz64 p u b) s (fun t => ∃ n, LeadingZeros 64 n b.toNat ∧ res (BitVec.ofNat 64 n) t)) ∧
    (issues s p (0x29A + 32 * u.val) b false = true →
      Ends (.cls32 p u b) s (fun t => ∃ n, LeadingZeros 32 (n + 1) flip ∧ res (BitVec.ofNat 64 n) t)) ∧
    (issues s p (0x29B + 32 * u.val) b false = true → Ends (.cmpeq p u b) s (res (ofBool (decide (a = b))))) ∧
    (issues s p (0x29C + 32 * u.val) b false = true → Ends (.cmplt p u b) s (res (ofBool (a.slt b)))) ∧
    (issues s p (0x29D + 32 * u.val) b false = true → Ends (.cmpltu p u b) s (res (ofBool (a.ult b)))) ∧
    (issues s p (0x29E + 32 * u.val) b false = true → Ends (.min p u b) s (res (if a.slt b then a else b))) ∧
    (issues s p (0x29F + 32 * u.val) b false = true → Ends (.max p u b) s (res (if a.slt b then b else a)))) ∧
  (∀ u : Fin 4, portReset (0x280 + 32 * u.val) = 0xFFF ∧ portReset (0x282 + 32 * u.val) = 0 ∧
    ∀ o, 3 ≤ o → o ≤ 7 → portKind (0x280 + 32 * u.val + o) = .none)

/-- R136, R147. The multiplier's operations: the low halves of both operands, the products of MULS, MULU and MULSU in
full, those of MULQ and MUL32 clamped where S is 1. The multiplier's DST and OPA at reset, and its reserved ports. -/
def Obligations.Multiplier : Prop :=
  (∀ (s : State) (p : Pair) (b : Word) (sat : Bool),
    let a := opnd s p 0x302
    let res (v : Word) (t : State) := ResultTo s t p 0x300 1 v
    (issues s p 0x308 b false = true → Ends (.muls p b) s (res (BitVec.ofInt 64 (lo a * lo b)))) ∧
    (issues s p 0x309 b false = true →
      Ends (.mulu p b) s (res (BitVec.ofNat 64 (a.toNat % 2 ^ 32 * (b.toNat % 2 ^ 32))))) ∧
    (issues s p 0x30A b false = true →
      Ends (.mulsu p b) s (res (BitVec.ofInt 64 (lo a * ((b.toNat % 2 ^ 32 : Nat) : Int))))) ∧
    (issues s p 0x30B b sat = true → Ends (.mulq p b sat) s (res (narrow32 sat (lo a * lo b / 2 ^ 31)))) ∧
    (issues s p 0x30C b sat = true → Ends (.mul32 p b sat) s (res (narrow32 sat (lo a * lo b))))) ∧
  (portReset 0x300 = 0xFFF ∧ portReset 0x302 = 0 ∧
    ∀ o, (3 ≤ o ∧ o ≤ 7) ∨ (0xD ≤ o ∧ o < 0x40) → portKind (0x300 + o) = .none)

/-- R115, R148 to R151, R153 to R156. The divider's operations: the quotient rounded toward zero, the remainder of the
sign of the dividend, the edge values of division by zero and of MIN by −1, and the cycle in which the result lands.
FDIV and FSQRT go in progress with their result, their flags and the cycle of their landing; FSQRT ignores OPA. When
the iterative result of DIV or of the FPU lands, RES and the register DST named hold it, that register cut to its
width, and the unit is free; the FPU's flags join FSTAT, after what lands before them, and where a move to FSTAT is on
its way they land after it. -/
def Obligations.DividerAndRoot : Prop :=
  (∀ (s : State) (p : Pair) (b : Word) (sat : Bool),
    let a := opnd s p 0x382
    let ct := constTime s p
    let x := lo a
    let y := lo b
    let ux := a.toNat % 2 ^ 32
    let uy := b.toNat % 2 ^ 32
    let t32s := divTime false ct x.natAbs y.natAbs (decide (x = -2 ^ 31 ∧ y = -1))
    let t32u := divTime false ct ux uy false
    let t64s := divTime true ct a.toInt.natAbs b.toInt.natAbs (decide (a.toInt = -2 ^ 63 ∧ b.toInt = -1))
    let t64u := divTime true ct a.toNat b.toNat false
    let ones : Word := BitVec.allOnes 64
    (issues s p 0x388 b sat = true → Ends (.divs32 p b sat) s
      (fun t => Divides s t p (if y = 0 then ones else narrow32 sat (x.tdiv y)) t32s)) ∧
    (issues s p 0x389 b false = true → Ends (.divu32 p b) s
      (fun t => Divides s t p (if uy = 0 then ones else narrow32 false (ux / uy : Nat)) t32u)) ∧
    (issues s p 0x38A b false = true → Ends (.rems32 p b) s
      (fun t => Divides s t p (narrow32 false (if y = 0 then x else x.tmod y)) t32s)) ∧
    (issues s p 0x38B b false = true → Ends (.remu32 p b) s
      (fun t => Divides s t p (narrow32 false (if uy = 0 then ux else (ux % uy : Nat))) t32u)) ∧
    (issues s p 0x38C b sat = true → Ends (.divs64 p b sat) s
      (fun t => Divides s t p (if b = 0 then ones else narrow64 sat (a.toInt.tdiv b.toInt)) t64s)) ∧
    (issues s p 0x38D b false = true → Ends (.divu64 p b) s
      (fun t => Divides s t p (if b = 0 then ones else a / b) t64u)) ∧
    (issues s p 0x38E b false = true → Ends (.rems64 p b) s
      (fun t => Divides s t p (if b = 0 then a else BitVec.ofInt 64 (a.toInt.tmod b.toInt)) t64s)) ∧
    (issues s p 0x38F b false = true → Ends (.remu64 p b) s (fun t => Divides s t p (if b = 0 then a else a % b) t64u))) ∧
  (∀ (s : State) (p : Pair) (dbl : Bool) (b : Word),
    let f := fmtOf dbl
    let rm := roundMode s p
    let goes (r : Nat × Nat) (cycles : Nat) (t : State) :=
      (Machine.core t.dev p).fpi = some ⟨(opnd s p 0x340).toNat, BitVec.ofNat 64 r.1, r.2, (opnd s p 0xEE).toNat + cycles,
        (metCore p s.dev).bound (opnd s p 0x340).toNat⟩
    (issues s p (fpPort 0x14 dbl) b false = true → Ends (.fdiv p dbl b) s
      (goes (fpDiv f rm (fpVal dbl (opnd s p 0x342)) (fpVal dbl b)) (if dbl then 17 else 9))) ∧
    (issues s p (fpPort 0x15 dbl) b false = true → Ends (.fsqrt p dbl b) s
      (goes (fpSqrt f rm (fpVal dbl b)) (if dbl then 19 else 10)))) ∧
  (∀ (s : State) (p : Pair) (o : IterOp), awake s.dev = true →
    ((Machine.core s.dev p).div = some o → Ends (.divResultLand p) s (fun t =>
      (Machine.core t.dev p).div = none ∧ (Machine.core t.dev p).port 0x381 = o.v ∧
      (dstReg o.dst = true → (Machine.core t.dev p).port o.dst = o.v &&& BitVec.ofNat 64 (portMask o.dst)))) ∧
    ((Machine.core s.dev p).fpi = some o → Ends (.fpuIterLand p) s (fun t =>
      (Machine.core t.dev p).fpi = none ∧ (Machine.core t.dev p).port 0x341 = o.v ∧
      (dstReg o.dst = true → (Machine.core t.dev p).port o.dst = o.v &&& BitVec.ofNat 64 (portMask o.dst)) ∧
      let c := Machine.core (if (Machine.core s.dev p).landAt < o.due then settle p s.dev else s.dev) p
      let moved := c.landAt = o.due ∧ c.pipe.any (fun l => l.eff.isFstat && decide (l.due ≤ c.issued)) = true
      (¬moved → (Machine.core t.dev p).port 0xE1 = c.port 0xE1 ||| BitVec.ofNat 64 o.flags) ∧
      (moved → (Machine.core t.dev p).port 0xE1 = c.port 0xE1 ∧
        (o.flags ≠ 0 → ⟨c.issued, c.issued, .flags o.flags⟩ ∈ (Machine.core t.dev p).pipe)))))

/-- R111, R153 to R156, R158. The sums, products and fused products of the FPU, in either format and under the rounding
mode in force, are four bundles from landing; FMIN and FMAX are two. The compares and the conversions of the FPU are
two bundles from landing. A move to FSTAT writes it for the next bundle. -/
def Obligations.FpuOperations : Prop :=
  (∀ (s : State) (p : Pair) (dbl : Bool) (b : Word),
    let f := fmtOf dbl
    let rm := roundMode s p
    let cut (w : Word) : Nat := if dbl then w.toNat else w.toNat % 2 ^ 32
    let x := fpVal dbl (opnd s p 0x342)
    let y := fpVal dbl b
    let z := fpVal dbl (opnd s p 0x343)
    (issues s p (fpPort 0x08 dbl) b false = true → Ends (.fadd p dbl b) s (fun t => FpPat s t p 4 (fpAdd f rm x y))) ∧
    (issues s p (fpPort 0x09 dbl) b false = true → Ends (.fsub p dbl b) s (fun t => FpPat s t p 4 (fpAdd f rm x y.neg))) ∧
    (issues s p (fpPort 0x0A dbl) b false = true → Ends (.fmul p dbl b) s (fun t => FpPat s t p 4 (fpMul f rm x y))) ∧
    (issues s p (fpPort 0x0B dbl) b false = true → Ends (.fma p dbl b) s (fun t => FpPat s t p 4 (fpFma f rm x y z))) ∧
    (issues s p (fpPort 0x0C dbl) b false = true → Ends (.fms p dbl b) s (fun t => FpPat s t p 4 (fpFma f rm x y z.neg))) ∧
    (issues s p (fpPort 0x0D dbl) b false = true → Ends (.fnma p dbl b) s (fun t => FpPat s t p 4 (fpFma f rm x.neg y z))) ∧
    (issues s p (fpPort 0x0E dbl) b false = true → Ends (.fmin p dbl b) s
      (fun t => FpPat s t p 2 (fpMinMax f false (cut (opnd s p 0x342)) (cut b)))) ∧
    (issues s p (fpPort 0x0F dbl) b false = true → Ends (.fmax p dbl b) s
      (fun t => FpPat s t p 2 (fpMinMax f true (cut (opnd s p 0x342)) (cut b))))) ∧
  (∀ (s : State) (p : Pair) (dbl : Bool) (b : Word),
    let rm := roundMode s p
    let x := fpVal dbl (opnd s p 0x342)
    let y := fpVal dbl b
    let bs := fpVal false b
    let bd := fpVal true b
    (issues s p (fpPort 0x10 dbl) b false = true → Ends (.fcmpeq p dbl b) s (fun t => FpPat s t p 2 (fpCompare 0 x y))) ∧
    (issues s p (fpPort 0x11 dbl) b false = true → Ends (.fcmplt p dbl b) s (fun t => FpPat s t p 2 (fpCompare 1 x y))) ∧
    (issues s p (fpPort 0x12 dbl) b false = true → Ends (.fcmple p dbl b) s (fun t => FpPat s t p 2 (fpCompare 2 x y))) ∧
    (issues s p (fpPort 0x13 dbl) b false = true → Ends (.fcmpun p dbl b) s (fun t => FpPat s t p 2 (fpCompare 3 x y))) ∧
    (issues s p 0x368 b false = true → Ends (.fcvtDS p b) s (fun t => FpPat s t p 2 (fpToFmt (fmtOf true) rm bs))) ∧
    (issues s p 0x369 b false = true → Ends (.fcvtSD p b) s (fun t => FpPat s t p 2 (fpToFmt (fmtOf false) rm bd))) ∧
    (issues s p 0x36A b false = true → Ends (.fcvtSW p b) s (fun t => FpPat s t p 2 (fpOfInt (fmtOf false) rm (lo b) 0))) ∧
    (issues s p 0x36B b false = true → Ends (.fcvtDW p b) s (fun t => FpPat s t p 2 (fpOfInt (fmtOf true) rm (lo b) 0))) ∧
    (issues s p 0x36C b false = true → Ends (.fcvtDL p b) s (fun t => FpPat s t p 2 (fpOfInt (fmtOf true) rm b.toInt 0))) ∧
    (issues s p 0x36D b false = true → Ends (.fcvtWS p b) s (fun t => FpInt s t p 2 (fpToInt rm 32 bs))) ∧
    (issues s p 0x36E b false = true → Ends (.fcvtWD p b) s (fun t => FpInt s t p 2 (fpToInt rm 32 bd))) ∧
    (issues s p 0x36F b false = true → Ends (.fcvtLD p b) s
      (fun t => FpTo s t p 2 (BitVec.ofInt 64 (fpToInt rm 64 bd).1) (fpToInt rm 64 bd).2)) ∧
    (issues s p 0x370 b false = true → Ends (.fcvtSQ p b) s (fun t => FpPat s t p 2 (fpOfInt (fmtOf false) rm (lo b) (-31)))) ∧
    (issues s p 0x371 b false = true → Ends (.fcvtDQ p b) s (fun t => FpPat s t p 2 (fpOfInt (fmtOf true) rm (lo b) (-31)))) ∧
    (issues s p 0x372 b false = true → Ends (.fcvtQS p b) s (fun t => FpInt s t p 2 (fpToQ rm bs))) ∧
    (issues s p 0x373 b false = true → Ends (.fcvtQD p b) s (fun t => FpInt s t p 2 (fpToQ rm bd)))) ∧
  (∀ (s : State) (p : Pair) (v : Word), issues s p 0xE1 v false = true →
    Ends (.fstatWrite p v) s (fun t => Sent s t p 1 (.fstat v)))

/-- R154 to R158. What the FPU makes of NaNs and of invalid operations: every NaN result is the canonical one, and NV is set
exactly by a signalling operand or an invalid operation, in every operation, FMIN and FMAX, the compares and the
conversions. And what it makes of numbers: every sum, product, fused sum, quotient, root and conversion is the exact
value rounded once by RM, with the flags of that, said over the rational values and not by the model's own rounding; an
exact zero sum is +0, and −0 in mode 3. (The sum of two zeros of one sign keeps it: the model's choice, log entry 159;
that a conversion to an integer that fits sets NX where it is inexact is read from IEEE 754, R153.) -/
def Obligations.FpuNaNs : Prop :=
  (∀ (dbl : Bool) (rm : Nat) (x y z : Fp),
    let f := fmtOf dbl
    let nan (r : Nat × Nat) (nv : Bool) : Prop := r = (if dbl then 0x7FF8000000000000 else 0x7FC00000, if nv then 16 else 0)
    (x.isNan = true ∨ y.isNan = true →
      nan (fpAdd f rm x y) (x.isSig || y.isSig) ∧ nan (fpMul f rm x y) (x.isSig || y.isSig) ∧
      nan (fpDiv f rm x y) (x.isSig || y.isSig)) ∧
    (∀ a b : Bool, nan (fpAdd f rm (.inf a) (.inf !a)) true ∧ nan (fpDiv f rm (.inf a) (.inf b)) true) ∧
    (∀ (a c : Bool) (e : Int), nan (fpMul f rm (.inf a) (.fin c 0 e)) true ∧ nan (fpMul f rm (.fin c 0 e) (.inf a)) true ∧
      nan (fpFma f rm (.inf a) (.fin c 0 e) z) true ∧ nan (fpFma f rm (.fin c 0 e) (.inf a) z) true ∧
      (∀ (d : Bool) (g : Int), nan (fpDiv f rm (.fin c 0 e) (.fin d 0 g)) true)) ∧
    (∀ (m : Nat) (e : Int), 0 < m → nan (fpSqrt f rm (.fin true m e)) true) ∧ nan (fpSqrt f rm (.inf true)) true ∧
    (∀ (m : Nat) (e : Int) (a c : Bool) (g : Int), 0 < m → fpDiv f rm (.fin a m e) (.fin c 0 g) =
      (withSign f (a != c) f.infBits, 8)) ∧
    (∀ a : Bool, fpSqrt f rm (unpack f (withSign f a 0)) = (withSign f a 0, 0)) ∧
    (x.isNan = true ∨ y.isNan = true ∨ z.isNan = true →
      (∀ (a c : Bool) (e : Int), (x, y) ≠ (.inf a, .fin c 0 e) ∧ (x, y) ≠ (.fin c 0 e, .inf a)) →
      nan (fpFma f rm x y z) (x.isSig || y.isSig || z.isSig)) ∧
    (∀ (a c : Bool) (m : Nat) (e : Int), 0 < m → nan (fpFma f rm (.inf a) (.fin c m e) (.inf (a == c))) true ∧
      nan (fpFma f rm (.fin c m e) (.inf a) (.inf (a == c))) true ∧ nan (fpFma f rm (.inf a) (.inf c) (.inf (a == c))) true) ∧
    (x.isNan = true → nan (fpSqrt f rm x) x.isSig ∧ nan (fpToFmt f rm x) x.isSig ∧ fpToQ rm x = (0, 16) ∧
      (∀ w : Nat, fpToInt rm w x = (0, 16))) ∧
    (∀ (a : Bool) (w : Nat), fpToInt rm w (.inf a) = (if a then -2 ^ (w - 1) else 2 ^ (w - 1) - 1, 16) ∧
      fpToQ rm (.inf a) = (if a then -2 ^ 31 else 2 ^ 31 - 1, 1)) ∧
    (∀ na nb : Nat, finitePat f na = true → finitePat f nb = true →
      let q := ratOf (unpack f na)
      let w := ratOf (unpack f nb)
      (q < w ∨ q = w ∧ f.signBit ≤ na → fpMinMax f false na nb = (na, 0) ∧ fpMinMax f true na nb = (nb, 0)) ∧
      (w < q → fpMinMax f false na nb = (nb, 0) ∧ fpMinMax f true na nb = (na, 0)) ∧
      (q = w → na < f.signBit → fpMinMax f false na nb = (nb, 0) ∧ fpMinMax f true na nb = (na, 0))) ∧
    (x.isNan = true ∨ y.isNan = true →
      let nv := if x.isSig || y.isSig then 16 else 0
      fpCompare 0 x y = (0, nv) ∧ fpCompare 1 x y = (0, 16) ∧ fpCompare 2 x y = (0, 16) ∧ fpCompare 3 x y = (1, nv)) ∧
    (∀ (big : Bool) (na nb : Nat),
      let a := unpack f na
      let b := unpack f nb
      let nv := if a.isSig || b.isSig then 16 else 0
      (a.isNan = true → b.isNan = true → nan (fpMinMax f big na nb) (a.isSig || b.isSig)) ∧
      (a.isNan = true → b.isNan = false → fpMinMax f big na nb = (nb, nv)) ∧
      (a.isNan = false → b.isNan = true → fpMinMax f big na nb = (na, nv)))) ∧
  (∀ (dbl : Bool) (rm : Nat) (s1 s2 s3 : Bool) (m1 m2 m3 : Nat) (e1 e2 e3 : Int), rm < 4 →
    let f := fmtOf dbl
    let a : Fp := .fin s1 m1 e1
    let b : Fp := .fin s2 m2 e2
    let c : Fp := .fin s3 m3 e3
    let x := ratOf a
    let y := ratOf b
    let z := ratOf c
    (x + y ≠ 0 → RoundedTo f rm (x + y) (fpAdd f rm a b)) ∧
    (x + y = 0 → x ≠ 0 ∨ s1 ≠ s2 → fpAdd f rm a b = (withSign f (rm == 3) 0, 0)) ∧
    (x * y ≠ 0 → RoundedTo f rm (x * y) (fpMul f rm a b)) ∧
    (x * y = 0 → fpMul f rm a b = (withSign f (s1 != s2) 0, 0)) ∧
    (x * y + z ≠ 0 → RoundedTo f rm (x * y + z) (fpFma f rm a b c)) ∧
    (x * y + z = 0 → z ≠ 0 → fpFma f rm a b c = (withSign f (rm == 3) 0, 0)) ∧
    (x ≠ 0 → y ≠ 0 → RoundedTo f rm (x / y) (fpDiv f rm a b)) ∧
    (x ≠ 0 → RoundedTo f rm x (fpToFmt f rm a)) ∧
    (∀ n e : Int, n ≠ 0 → RoundedTo f rm (n * 2 ^ e) (fpOfInt f rm n e)) ∧
    (∀ n : Nat, finitePat f n = true → 0 < ratOf (unpack f n) →
      let r := fpSqrt f rm (unpack f n)
      let v := ratOf (unpack f r.1)
      let up := ratOf (unpack f (r.1 + 1))
      let dn := ratOf (unpack f (r.1 - 1))
      let q := ratOf (unpack f n)
      r.1 < f.infBits ∧ r.2 = (if v * v = q then 0 else 1) ∧
      (rm = 0 → (dn + v) * (dn + v) ≤ 4 * q ∧ 4 * q ≤ (v + up) * (v + up)) ∧
      (rm = 1 ∨ rm = 3 → v * v ≤ q ∧ q < up * up) ∧ (rm = 2 → dn * dn < q ∧ q ≤ v * v)) ∧
    fpCompare 0 a b = (if x = y then 1 else 0, 0) ∧ fpCompare 1 a b = (if x < y then 1 else 0, 0) ∧
    fpCompare 2 a b = (if x ≤ y then 1 else 0, 0) ∧ fpCompare 3 a b = (0, 0) ∧
    (∀ (k : Int) (w : Nat), RoundsInt rm x k → w = 32 ∨ w = 64 → fpToInt rm w a =
      (if k < -2 ^ (w - 1) then (-2 ^ (w - 1), 16) else if 2 ^ (w - 1) - 1 < k then (2 ^ (w - 1) - 1, 16)
       else (k, if (k : Rat) = x then 0 else 1))) ∧
    (∀ k : Int, RoundsInt rm (x * 2 ^ 31) k → fpToQ rm a =
      (if k < -2 ^ 31 then (-2 ^ 31, 1) else if 2 ^ 31 - 1 < k then (2 ^ 31 - 1, 1)
       else (k, if (k : Rat) = x * 2 ^ 31 then 0 else 1))))

/-- R111, R138, R140 to R143. The accumulating operations of a CMAC: three bundles away from accumulator `k`, the exact
sums of products added, or set where the operation does not accumulate; S is kept for those that add. EXTR and RAWX
are two bundles away from RES and DST, EXTR with the flags of both its parts from STAT; a move to STAT clears it for
the next bundle. -/
def Obligations.CmacOperations : Prop :=
  (∀ (s : State) (p : Pair) (c k : Fin 4) (v : Word) (sat : Bool),
    let port (o : Nat) : Nat := 0x100 + 64 * c.val + o + k.val
    let x := opnd s p (0x102 + 64 * c.val)
    let y := opnd s p (0x103 + 64 * c.val)
    let goes (op : AccOp) (b : Bool) (t : State) := Sent s t p 3 (.acc c.val k.val op b)
    let re := lo x * lo v - hi x * hi v
    let im := lo x * hi v + hi x * lo v
    let cre := lo x * lo v + hi x * hi v
    let cim := hi x * lo v - lo x * hi v
    let qre := lo x * lo y + hi x * hi y
    let qim := lo x * lo v + hi x * hi v
    (issues s p (port 0x08) v sat = true → Ends (.cmul p c k v sat) s (goes (.set re im) false)) ∧
    (issues s p (port 0x0C) v sat = true → Ends (.cmulc p c k v sat) s (goes (.set cre cim) false)) ∧
    (issues s p (port 0x10) v sat = true → Ends (.cmac p c k v sat) s (goes (.add re im) sat)) ∧
    (issues s p (port 0x14) v sat = true → Ends (.cmacc p c k v sat) s (goes (.add cre cim) sat)) ∧
    (issues s p (port 0x18) v sat = true → Ends (.cmsc p c k v sat) s (goes (.add (-re) (-im)) sat)) ∧
    (issues s p (port 0x1C) v sat = true → Ends (.cmscc p c k v sat) s (goes (.add (-cre) (-cim)) sat)) ∧
    (issues s p (port 0x20) v sat = true → Ends (.qdot p c k v sat) s (goes (.add qre qim) sat)) ∧
    (issues s p (port 0x24) v sat = true → Ends (.qdotn p c k v sat) s (goes (.add (-qre) (-qim)) sat)) ∧
    (issues s p (port 0x28) v sat = true → Ends (.qset p c k v sat) s (goes (.set qre qim) false)) ∧
    (issues s p (port 0x2C) 0 false = true → Ends (.clr p c k) s (goes (.set 0 0) false)) ∧
    (issues s p (port 0x38) v false = true → Ends (.raww p c k v) s (goes (.raw (v.toNat % 4) x) false))) ∧
  (∀ (s : State) (p : Pair) (c k : Fin 4) (v : Word) (sat : Bool),
    let base := 0x100 + 64 * c.val
    let part (i : Nat) : BitVec 72 := (metCore p s.dev).accGet (8 * c.val + 2 * k.val + i)
    let sh := ((opnd s p (base + 4)).setWidth 6).toInt
    let scaled (a : BitVec 72) : Int :=
      if 31 ≤ sh then a.toInt * 2 ^ (sh - 31).toNat else a.toInt / 2 ^ (31 - sh).toNat
    let clamp (r : Int) : Int := if sat then max (-2147483648) (min r 2147483647) else r
    let word (a : BitVec 72) : BitVec 32 := BitVec.ofInt 32 (clamp (scaled a))
    let fits (a : BitVec 72) : Bool := decide (-2147483648 ≤ scaled a ∧ scaled a ≤ 2147483647)
    (issues s p (base + 0x30 + k.val) 0 sat = true → Ends (.extr p c k sat) s (fun t =>
      ResultTo s t p base 2 (word (part 1) ++ word (part 0))
        [.stat c.val (if fits (part 0) && fits (part 1) then 0 else if sat then 4 else 8)])) ∧
    (issues s p (base + 0x34 + k.val) v false = true → Ends (.rawx p c k v) s (fun t =>
      let a := part (v.toNat / 2 % 2)
      ResultTo s t p base 2 (if v.toNat % 2 = 0 then a.setWidth 64 else (a.extractLsb' 64 8).signExtend 64))) ∧
    (issues s p (base + 5) 0 false = true → Ends (.cmacStatClear p c) s (fun t => Sent s t p 1 (.statClear c.val))))

/-- R111, R113, R136, R140, R143, R156. A single effect that is due lands, and nothing is left that is due. An addition to
an accumulator clamps or wraps each part by itself, and sets the flags; a move to a register keeps the register's width; a
store writes its bytes and no other; flags join, and a move to STAT or FSTAT clears or sets. -/
def Obligations.FixedLatencyLanding : Prop :=
  ∀ (s : State) (p : Pair), awake s.dev = true →
    Ends (.fixedLatencyLand p) s (fun t => ∀ l ∈ (Machine.core t.dev p).pipe, (Machine.core s.dev p).issued < l.due) ∧
    (∀ l : Landing, (Machine.core s.dev p).pipe = [l] → l.due ≤ (Machine.core s.dev p).issued →
      Ends (.fixedLatencyLand p) s (fun t =>
        let c := Machine.core s.dev p
        let e := Machine.core t.dev p
        match l.eff with
        | .port id v => id < 0xD8 → e.port id = v &&& BitVec.ofNat 64 (portMask id)
        | .acc u k (.add re im) sat =>
          let new (i : Nat) (x : Int) : BitVec 72 :=
            let y := (c.accGet (8 * u + 2 * k + i)).toInt + x
            BitVec.ofInt 72 (if sat then max (-(2 ^ 71)) (min y (2 ^ 71 - 1)) else y)
          let fits (i : Nat) (x : Int) : Bool :=
            let y := (c.accGet (8 * u + 2 * k + i)).toInt + x
            decide (-(2 ^ 71) ≤ y ∧ y < 2 ^ 71)
          e.accGet (8 * u + 2 * k) = new 0 re ∧ e.accGet (8 * u + 2 * k + 1) = new 1 im ∧
          e.port (0x105 + 64 * u) = c.port (0x105 + 64 * u) |||
            (if fits 0 re && fits 1 im then 0 else if sat then 1 else 2)
        | .acc u k (.set re im) _ =>
          e.accGet (8 * u + 2 * k) = BitVec.ofInt 72 re ∧ e.accGet (8 * u + 2 * k + 1) = BitVec.ofInt 72 im
        | .acc u k (.raw part v) _ =>
          let old (i : Nat) : BitVec 72 := c.accGet (8 * u + 2 * k + i)
          let new (i : Nat) : BitVec 72 :=
            if part % 2 = 0 then (old i).extractLsb' 64 8 ++ v else v.setWidth 8 ++ (old i).setWidth 64
          e.accGet (8 * u + 2 * k) = (if part / 2 = 1 then old 0 else new 0) ∧
          e.accGet (8 * u + 2 * k + 1) = (if part / 2 = 1 then new 1 else old 1)
        | .stat u f => e.port (0x105 + 64 * u) = c.port (0x105 + 64 * u) ||| BitVec.ofNat 64 f
        | .statClear u => e.port (0x105 + 64 * u) = 0
        | .flags f => e.port 0xE1 = c.port 0xE1 ||| BitVec.ofNat 64 f
        | .fstat v => e.port 0xE1 = v &&& 0x1F
        | .store _ a data =>
          (∀ i (h : i < data.length), rdB t.dev (0x20000000 + p.val * 0x1000000 + a + i) = data[i]) ∧
          (∀ x, x < 0x20000000 + p.val * 0x1000000 + a ∨ 0x20000000 + p.val * 0x1000000 + a + data.length ≤ x →
            rdB t.dev x = rdB s.dev x)))

/-- R111, R164, R166, R167, R169. The addressed loads of an LSU up to 64 bits: the bytes at the address, little-endian,
zero-extended or sign-extended, four bundles away from RES and from the G register that DST names; the single-bit
errors they correct count. The loads of several registers: LD128 and LD256 fill the aligned group of G registers that
holds the one DST names, LDQA the quad that the value moved names, with the first word at the lowest address. -/
def Obligations.LsuLoads : Prop :=
  (∀ (s : State) (p : Pair) (u : Fin 2) (v : Word) (ecc : Nat),
    let n (k : Nat) : Nat := localValue s p u v k
    let base := 0x200 + 64 * u.val
    let at_ (o : Nat) : Prop := issuesEcc s p (base + o) v false ecc = true
    let loads (w : Word) (t : State) : Prop := Loads s t p u w ∧ Corrected s t p ecc
    (at_ 0x10 → Ends (.lsuLd8u p u v) s (loads (BitVec.ofNat 64 (n 1)))) ∧
    (at_ 0x11 → Ends (.lsuLd8s p u v) s (loads ((BitVec.ofNat 8 (n 1)).signExtend 64))) ∧
    (at_ 0x12 → Ends (.lsuLd16u p u v) s (loads (BitVec.ofNat 64 (n 2)))) ∧
    (at_ 0x13 → Ends (.lsuLd16s p u v) s (loads ((BitVec.ofNat 16 (n 2)).signExtend 64))) ∧
    (at_ 0x14 → Ends (.lsuLd32u p u v) s (loads (BitVec.ofNat 64 (n 4)))) ∧
    (at_ 0x15 → Ends (.lsuLd32s p u v) s (loads ((BitVec.ofNat 32 (n 4)).signExtend 64))) ∧
    (at_ 0x16 → Ends (.lsuLd64 p u v) s (loads (BitVec.ofNat 64 (n 8))))) ∧
  (∀ (s : State) (p : Pair) (u : Fin 2) (v : Word) (ecc : Nat),
    let base := 0x200 + 64 * u.val
    let dst := (opnd s p base).toNat
    let a := accessAddr s p v
    (issuesEcc s p (base + 0x17) v false ecc = true → dst < 0x80 →
      Ends (.lsuLd128 p u v) s (fun t => LoadsGroup s t p u a (dst - dst % 2) 2)) ∧
    (issuesEcc s p (base + 0x18) v false ecc = true → dst < 0x80 →
      Ends (.lsuLd256 p u v) s (fun t => LoadsGroup s t p u a (dst - dst % 4) 4)) ∧
    (issuesEcc s p (base + 0x17) v false ecc = true → 0x80 ≤ dst →
      Ends (.lsuLd128 p u v) s (fun t => Sent s t p 4 (.port (base + 1) (BitVec.ofNat 64 (localValue s p u v 8))))) ∧
    (issuesEcc s p (base + 0x18) v false ecc = true → 0x80 ≤ dst →
      Ends (.lsuLd256 p u v) s (fun t => Sent s t p 4 (.port (base + 1) (BitVec.ofNat 64 (localValue s p u v 8))))) ∧
    (issuesEcc s p (base + 0x19) v false ecc = true →
      Ends (.ldqa p u v) s (fun t => LoadsGroup s t p u (v.toNat % 2 ^ 19) (4 * (v.toNat / 2 ^ 19 % 32)) 4)))

/-- R111, R166, R169. The stores of an LSU: the low bytes of SD0, the words SD0 to SD3, or a quad of G registers, two bundles
away from memory at the address of the operation. -/
def Obligations.LsuStores : Prop :=
  ∀ (s : State) (p : Pair) (u : Fin 2) (v : Word),
    let base := 0x200 + 64 * u.val
    let sd (j : Nat) : List Byte := leBytes 8 (opnd s p (base + 2 + j)).toNat
    let g (j : Nat) : List Byte := leBytes 8 (opnd s p (4 * (v.toNat / 2 ^ 19 % 32) + j)).toNat
    let puts (data : List Byte) (t : State) := Stores s t p u (accessAddr s p v) data
    (issues s p (base + 0x20) v false = true → Ends (.lsuSt8 p u v) s (puts ((sd 0).take 1))) ∧
    (issues s p (base + 0x21) v false = true → Ends (.lsuSt16 p u v) s (puts ((sd 0).take 2))) ∧
    (issues s p (base + 0x22) v false = true → Ends (.lsuSt32 p u v) s (puts ((sd 0).take 4))) ∧
    (issues s p (base + 0x23) v false = true → Ends (.lsuSt64 p u v) s (puts (sd 0))) ∧
    (issues s p (base + 0x24) v false = true → Ends (.lsuSt128 p u v) s (puts (sd 0 ++ sd 1))) ∧
    (issues s p (base + 0x25) v false = true → Ends (.lsuSt256 p u v) s (puts (sd 0 ++ sd 1 ++ sd 2 ++ sd 3))) ∧
    (issues s p (base + 0x26) v false = true →
      Ends (.stqa p u v) s (fun t => Stores s t p u (v.toNat % 2 ^ 19) (g 0 ++ g 1 ++ g 2 ++ g 3)))

/-- R167, R168. The address update of an LSU access is visible to the next bundle: An + Mm in mode 1, and in mode 2 the result of
the pseudocode for the buffer of L bytes, where P is the smallest power of two not less than L; the other modes put nothing on
its way to An. With An inside the buffer and |Mm| at most L, An stays inside it. -/
def Obligations.LsuAddressUpdate : Prop :=
  (∀ (i : Instr) (s : State) (p : Pair) (u o : Nat) (v : Word) (ecc : Nat),
    lsuOf i = some (p, u, o, v) → o ≠ 0x19 → o ≠ 0x26 → issuesEcc s p (0x200 + 64 * u + o) v false ecc = true →
    let n := v.toNat % 32
    let mode := v.toNat / 1024 % 4
    let an : Int := (opnd s p (0x80 + n)).toNat
    let mm : Int := ((opnd s p (0xA0 + v.toNat / 32 % 32)).setWidth 40).toInt
    let l := (opnd s p (0xC0 + n % 16)).toNat
    let goes (a : Int) : Prop := Ends i s (fun t => Sent s t p 1 (.port (0x80 + n) (BitVec.ofNat 64 (a.emod (2 ^ 40)).toNat)))
    ((mode = 1 ∨ (mode = 2 ∧ l = 0)) → goes (an + mm)) ∧
    (mode = 2 → 0 < l → ∀ k, l ≤ 2 ^ k → (k = 0 ∨ 2 ^ (k - 1) < l) →
      let base : Int := an / 2 ^ k * 2 ^ k
      let a := if base + l ≤ an + mm then an + mm - l else an + mm
      goes (if a < base then a + l else a)) ∧
    ((mode = 0 ∨ mode = 3) → Ends i s (fun t => ∀ x ∈ (Machine.core t.dev p).pipe,
      x ∈ (metCore p s.dev).pipe ∨ ∀ w, x.eff ≠ .port (0x80 + n) w))) ∧
  ∀ (an l : Nat) (mm : Int), 0 < l →
    let base := an / pow2Above l * pow2Above l
    an < base + l → mm.natAbs ≤ l → base + l ≤ 2 ^ 40 → base ≤ wrapAddr an mm l ∧ wrapAddr an mm l < base + l

/-- R172 to R177, R181, R246. The EXT operations that complete later: each waits with the destination DST names, the
bundle that triggered it, and its work. The EXT operations that take effect at their bundle. A store of an uncached
address is entered last in the write buffer; a store to a cached line of a write-back region changes the line and
marks it dirty, and one that misses has its line fetched. A line operation takes its line out of the cache or marks it
clean, a dirty line it writes back entering the buffer; IINV leaves no line of its address in the instruction cache
and IINV_ALL none outside the locked ways; FENCE holds the pair while a write waits. -/
def Obligations.ExtOperations : Prop :=
  (∀ (s : State) (p : Pair) (v : Word),
    let a := v.toNat % 2 ^ 40
    let c := metCore p s.dev
    let stop := (opnd s p 0x403).toNat
    let q := v.toNat % 2 ^ 15
    let bd : List Byte := (List.range 8).flatMap (fun i => leBytes 8 (opnd s p (0x440 + i)).toNat)
    let puts (w : ExtWork) (t : State) := Pushes s t p w
    (issues s p 0x410 v false = true → Ends (.extLd32u p v) s (puts (.load a 4 false (c.attr a)))) ∧
    (issues s p 0x411 v false = true → Ends (.extLd32s p v) s (puts (.load a 4 true (c.attr a)))) ∧
    (issues s p 0x412 v false = true → Ends (.extLd64 p v) s (puts (.load a 8 false (c.attr a)))) ∧
    (issues s p 0x41B v false = true → Ends (.dcleanR p v) s (puts (.range 0 a stop 0))) ∧
    (issues s p 0x41C v false = true → Ends (.dinvR p v) s (puts (.range 1 a stop 0))) ∧
    (issues s p 0x41D v false = true → Ends (.dcleaninvR p v) s (puts (.range 2 a stop 0))) ∧
    (issues s p 0x41E 0 false = true → Ends (.dcleanAll p) s (puts (.range 0 0 (2 ^ 40) 0))) ∧
    (issues s p 0x41F 0 false = true → Ends (.dcleaninvAll p) s (puts (.range 2 0 (2 ^ 40) 0))) ∧
    (issues s p 0x421 v false = true → Ends (.iinvR p v) s (puts (.irange a stop))) ∧
    (issues s p 0x423 v false = true → Ends (.ifill p v) s (puts (.ifill a ((opnd s p 0xF9).toNat / 16 % 4)))) ∧
    (issues s p 0x450 v false = true → Ends (.bobbinEnq p v) s (puts (.bobbin .enq q bd (bobRunning s.dev)))) ∧
    (issues s p 0x451 v false = true → Ends (.bobbinDeq p v) s (puts (.bobbin .deq q [] (bobRunning s.dev)))) ∧
    (issues s p 0x452 v false = true → Ends (.bobbinPeek p v) s (puts (.bobbin .peek q [] (bobRunning s.dev)))) ∧
    (issues s p 0x453 v false = true → Ends (.bobbinOcc p v) s (puts (.bobbin .occ q [] (bobRunning s.dev))))) ∧
  (∀ (s : State) (p : Pair) (v : Word),
    let a := v.toNat % 2 ^ 40
    let c := metCore p s.dev
    let bytes (n : Nat) : List (Nat × Byte) := cells a (leBytes n (opnd s p 0x402).toNat)
    let buffered (n : Nat) (t : State) := (Machine.core t.dev p).wb = c.wb ++ [⟨a, bytes n, true, c.pc, false⟩]
    let dirtied (k : Nat) (l : DLine) (n : Nat) (t : State) := tget (fun _ => none) (Machine.core t.dev p).dcache k =
      some ⟨l.addr, l.data.take (a % 64) ++ leBytes n (opnd s p 0x402).toNat ++ l.data.drop (a % 64 + n), true⟩
    (issues s p 0x413 v false = true → a % 4 = 0 → c.attr a = 0 → Ends (.extSt32 p v) s (buffered 4)) ∧
    (issues s p 0x414 v false = true → a % 8 = 0 → c.attr a = 0 → Ends (.extSt64 p v) s (buffered 8)) ∧
    (∀ k l, c.dFind a = some (k, l) → c.attr a = 2 →
      (issues s p 0x413 v false = true → a % 4 = 0 → Ends (.extSt32 p v) s (dirtied k l 4)) ∧
      (issues s p 0x414 v false = true → a % 8 = 0 → Ends (.extSt64 p v) s (dirtied k l 8))) ∧
    (c.dFind a = none → c.attr a = 2 →
      let fetches (t : State) := (Machine.core t.dev p).ext = c.ext ++ [⟨0xFFF, c.pc, .fill (a / 64 * 64)⟩]
      (issues s p 0x413 v false = true → a % 4 = 0 → Ends (.extSt32 p v) s fetches) ∧
      (issues s p 0x414 v false = true → a % 8 = 0 → Ends (.extSt64 p v) s fetches)) ∧
    (∀ k l, c.dFind a = some (k, l) →
      let place (t : State) := tget (fun _ => none) (Machine.core t.dev p).dcache k
      let back (t : State) := (Machine.core t.dev p).wb = (if l.dirty then
        c.wb ++ [⟨l.addr, cells l.addr l.data, false, c.pc, (c.upsetsIn (0x80000 + 64 * k) 64).contains true⟩] else c.wb)
      (issues s p 0x418 v false = true →
        Ends (.dclean p v) s (fun t => place t = some { l with dirty := false } ∧ back t)) ∧
      (issues s p 0x419 v false = true → Ends (.dinv p v) s (fun t => place t = none ∧ (Machine.core t.dev p).wb = c.wb)) ∧
      (issues s p 0x41A v false = true → Ends (.dcleaninv p v) s (fun t => place t = none ∧ back t))) ∧
    (issues s p 0x420 v false = true →
      Ends (.iinv p v) s (fun t => ∀ e ∈ (Machine.core t.dev p).icache, ∀ l, e.2 = some l → l.1 ≠ a / 64 * 64)) ∧
    (issues s p 0x422 0 false = true →
      Ends (.iinvAll p) s (fun t => ∀ e ∈ (Machine.core t.dev p).icache, (opnd s p 0xF9).getLsbD (e.1 / 512) = true)) ∧
    (issues s p 0x428 0 false = true → c.wb ≠ [] → Ends (.fence p) s (fun t => (Machine.core t.dev p).fence = true)))

/-- R117, R123, R132. A taken branch leaves the pair at its target, an absolute address or an offset in bundles from the
branch; CALL and CALLR also send the address of the next bundle to A31, and RET goes to the address in A31. RTI above
level 0 goes to the return address in the level's slot, makes the level interrupted current again, and sends the
predicates of the slot to P0 to P7. -/
def Obligations.Branches : Prop :=
  (∀ (s : State) (p : Pair) (v : Word),
    let c := metCore p s.dev
    let at_ (a : Nat) (t : State) := (Machine.core t.dev p).pc = a
    let link (t : State) := Sent s t p 1 (.port 0x9F (BitVec.ofNat 64 ((c.pc + 64) % 2 ^ 40)))
    (issues s p 0x3C0 v false = true → Ends (.jump p v) s (at_ (bundleAt v.toNat))) ∧
    (issues s p 0x3C1 v false = true → Ends (.br p v) s (at_ (bundleAt ((c.pc : Int) + 64 * v.toInt)))) ∧
    (issues s p 0x3C2 v false = true → Ends (.call p v) s (fun t => at_ (bundleAt v.toNat) t ∧ link t)) ∧
    (issues s p 0x3C3 v false = true →
      Ends (.callr p v) s (fun t => at_ (bundleAt ((c.pc : Int) + 64 * v.toInt)) t ∧ link t)) ∧
    (issues s p 0x3C4 0 false = true → Ends (.ret p) s (at_ (bundleAt (opnd s p 0x9F).toNat)))) ∧
  (∀ (s : State) (p : Pair),
    let c := metCore p s.dev
    let stat := (c.saved (2 * c.level + 1)).toNat
    c.level ≠ 0 → issues s p 0x3C5 0 false = true →
      Ends (.rti p) s (fun t =>
        (Machine.core t.dev p).pc = bundleAt (c.saved (2 * c.level)).toNat ∧ (Machine.core t.dev p).level = stat / 256 % 16 ∧
        ∀ i, i < 8 → Sent s t p 1 (.port (0xD0 + i) (BitVec.ofNat 64 (stat / 2 ^ i % 2)))))

/-- R182, R183, R185, R186. LCOUNT arms a level with the count, active or, for 0, to be skipped with REMAIN as it was, and
with the current level as owner; LCLR makes it idle; a move to LSTATE is one bundle away. The bundle at the LEND of active
levels that LEVEL owns goes back to LSTART for the highest of them with more than one turn left, those above it whose last
turn this was falling through to idle; where none goes back, the next bundle follows. Other levels keep their state, and a
taken branch leaves all of them alone. A level to be skipped has the bundle after its LEND issue in place of the one at
LSTART, and is idle then. -/
def Obligations.LoopControls : Prop :=
  (∀ (s : State) (p : Pair) (b : Nat), fetched s p b = true → illegal b = none → bit b 29 = false → fmtField b ≠ 2 →
    slotsOf b = [] →
    let c := metCore p s.dev
    let here (k : Nat) : Prop := c.loopSt k = 1 ∧ c.owned k = true ∧ c.lend k = c.pc
    let kept (t : State) (k : Nat) : Prop := (Machine.core t.dev p).port (0x3CC + 8 * k) = c.port (0x3CC + 8 * k)
    let idle (t : State) (k : Nat) : Prop := (Machine.core t.dev p).loopSt k = 0 ∧ (Machine.core t.dev p).remain k = 0
    let back (t : State) (k : Nat) : Prop := (Machine.core t.dev p).pc = bundleAt (c.lstart k) ∧
      (Machine.core t.dev p).loopSt k = 1 ∧ (Machine.core t.dev p).remain k = c.remain k - 1 ∧
      (Machine.core t.dev p).owned k = true
    let on (t : State) : Prop := (Machine.core t.dev p).pc = (c.pc + 64) % 2 ^ 40
    ((∀ k, k < 3 → ¬here k) → Ends (.bundleIssue p) s (fun t => on t ∧ ∀ k, k < 3 → kept t k)) ∧
    (∀ k, k < 3 → here k → (∀ j, j < 3 → k < j → ¬here j) → 1 < c.remain k →
      Ends (.bundleIssue p) s (fun t => back t k ∧ ∀ j, j < 3 → j ≠ k → kept t j)) ∧
    (∀ k, k < 3 → here k → (∀ j, j < 3 → j ≠ k → ¬here j) → c.remain k = 1 →
      Ends (.bundleIssue p) s (fun t => on t ∧ idle t k ∧ ∀ j, j < 3 → j ≠ k → kept t j)) ∧
    (∀ j k, j < k → k < 3 → here j → here k → (∀ i, i < 3 → j < i → i ≠ k → ¬here i) → c.remain k = 1 → 1 < c.remain j →
      Ends (.bundleIssue p) s (fun t => back t j ∧ idle t k ∧ ∀ i, i < 3 → i ≠ j → i ≠ k → kept t i))) ∧
  (∀ (s : State) (p : Pair) (v : Word), issues s p 0x3C0 v false = true →
    let c := metCore p s.dev
    (∀ k, k < 3 → tget (fun _ => none) c.lstate k = none) →
    Ends (.jump p v) s (fun t => ∀ k, k < 3 → (Machine.core t.dev p).port (0x3CC + 8 * k) = c.port (0x3CC + 8 * k))) ∧
  (∀ (s : State) (p : Pair) (b k : Nat), fetched s p b = true → illegal b = none → bit b 29 = false → fmtField b ≠ 2 →
    slotsOf b = [] →
    let c := Machine.core s.dev p
    k < 3 → c.loopSt k = 2 → c.owned k = true → c.lstart k = c.pc → (∀ j, j < 3 → j ≠ k → c.loopSt j = 0) →
    c.pipe = [] → c.sync = [] → Ends (.bundleIssue p) s (fun t =>
      (Machine.core t.dev p).pc = (bundleAt (c.lend k + 64) + 64) % 2 ^ 40 ∧ (Machine.core t.dev p).loopSt k = 0 ∧
      (Machine.core t.dev p).remain k = c.remain k)) ∧
  ∀ (s : State) (p : Pair) (k : Fin 3) (v : Word),
    let st := 0x3CC + 8 * k.val
    let n := v.toNat % 2 ^ 32
    (issues s p (0x3CA + 8 * k.val) v false = true → Ends (.lcount p k v) s (fun t =>
      (Machine.core t.dev p).port st =
        BitVec.ofNat 64 ((if n = 0 then (metCore p s.dev).remain k + 2 * 2 ^ 32 else n + 2 ^ 32) +
          (metCore p s.dev).level * 2 ^ 36))) ∧
    (issues s p (0x3CB + 8 * k.val) 0 false = true →
      Ends (.lclr p k) s (fun t => ((Machine.core t.dev p).port st).toNat / 2 ^ 32 % 4 = 0)) ∧
    (issues s p st v false = true → Ends (.lstateWrite p k v) s (fun t => Sent s t p 1 (.port st v)))

/-- R96, R99, R111, R126. An operation that issues counts one bundle and leaves alone whatever is not its result: the queue,
the twin role, the register pages, memory, every other pair, and of its own pair every register, operand port, accumulator, save slot, region,
and what other units have in progress; what it puts on its way lands later, and only where its chapter says. A control
operation of the CU likewise leaves registers and memory, and puts at most the link register on its way. -/
def Obligations.OperationFrame : Prop :=
  ∀ (i : Instr) (s : State) (p : Pair) (port : Nat) (v : Word) (sat : Bool) (ecc : Nat),
    opOf i = some (p, port, v, sat) → issuesEcc s p port v sat ecc = true →
      let was := metCore p s.dev
      (cuControl port = false → Ends i s (fun t => Corrected s t p (ecc + opCorrects s p port v) ∧ Kept s t p ∧
        (Machine.core t.dev p).port 0xEF = opnd s p 0xEF + 1 ∧ (∃ new, (Machine.core t.dev p).pipe = was.pipe ++ new ∧
          ∀ l ∈ new, l.bundle = was.issued ∧ mayLand s p port v l.eff = true) ∧
        ((port < 0x380 ∨ 0x3C0 ≤ port) → (Machine.core t.dev p).div = was.div) ∧
        ((port < 0x340 ∨ 0x380 ≤ port) → (Machine.core t.dev p).fpi = was.fpi) ∧
        (port < 0x400 → (Machine.core t.dev p).ext = was.ext ∧ (Machine.core t.dev p).wb = was.wb ∧
          (Machine.core t.dev p).dcache = was.dcache ∧ (Machine.core t.dev p).icache = was.icache))) ∧
      (cuControl port = true → port ≠ 0x3C5 → Ends i s (fun t =>
        t.pending = s.pending ∧ t.role = s.role ∧ t.dev.mem = (met p s.dev).mem ∧
        (∀ q, q ≠ p.val → Machine.core t.dev q = Machine.core s.dev q) ∧
        (∀ id, id < 0xD8 → (Machine.core t.dev p).port id = opnd s p id) ∧ (Machine.core t.dev p).port 0xEF = opnd s p 0xEF + 1 ∧
        (∀ l ∈ (Machine.core t.dev p).pipe, l ∈ was.pipe ∨ ((port = 0x3C2 ∨ port = 0x3C3) ∧
          l.eff = .port 0x9F (BitVec.ofNat 64 ((was.pc + 64) % 2 ^ 40))))))

/-- R115, R152, R153, R175. A bundle that must wait for a result, a busy unit or a full write buffer does not issue: one
cycle passes, STALL_SB counts it and stays at its largest value, and nothing else of the pair changes. A scoreboarded
register holds every bundle that would write it or name it in a DST (of every unit; an operation without a result too, which is
the model's choice of log entry 111), every LSU operation that loads into or stores from it, or takes its address from it; a divider in progress holds every trigger of DIV, and FDIV or FSQRT in progress every other. -/
def Obligations.Scoreboard : Prop :=
  (∀ (i : Instr) (s : State) (p : Pair) (port : Nat) (v : Word) (sat : Bool),
    opOf i = some (p, port, v, sat) → canIssue s p = true → port ≠ 0x3C5 →
    stallsSb (met p s.dev) (metCore p s.dev) (oneMove port v sat) = true →
      Ends i s (fun t =>
        ((Machine.core t.dev p).port 0xF1).toNat = min ((opnd s p 0xF1).toNat + 1) 0xFFFFFFFF ∧
        (Machine.core t.dev p).port 0xEE = opnd s p 0xEE + 1 ∧
        (∀ id, id ≠ 0xF1 → id ≠ 0xEE → (Machine.core t.dev p).port id = opnd s p id) ∧
        (Machine.core t.dev p).pc = (metCore p s.dev).pc ∧ (Machine.core t.dev p).pipe = (metCore p s.dev).pipe ∧
        (Machine.core t.dev p).ext = (metCore p s.dev).ext ∧ t.dev.mem = (met p s.dev).mem ∧ t.dev.regs = s.dev.regs)) ∧
  (∀ (d : Dev) (c : Core) (port : Nat) (v : Word) (sat : Bool),
    (c.busy port = true → stallsSb d c (oneMove port v sat) = true) ∧
    (portKind port = .trigger → (port < 0x200 ∨ 0x280 ≤ port) → unitBase port ≠ 0x3C0 →
      c.busy (c.num (unitBase port)) = true → stallsSb d c (oneMove port v sat) = true) ∧
    (∀ u o x, u < 2 → port = 0x200 + 64 * u + o → o < 0x40 → portKind port = .trigger → c.busy x = true →
      let dst := c.num (0x200 + 64 * u)
      let quad := 4 * (v.toNat / 2 ^ 19 % 32)
      ((o = 0x17 ∧ x / 2 = dst / 2) ∨ (o = 0x18 ∧ x / 4 = dst / 4) ∨ ((o = 0x19 ∨ o = 0x26) ∧ quad ≤ x ∧ x < quad + 4) ∨
        (o ≠ 0x17 ∧ o ≠ 0x18 ∧ o ≠ 0x19 ∧ o ≠ 0x26 ∧ x = dst)) → stallsSb d c (oneMove port v sat) = true) ∧
    (portKind port = .trigger → 0x200 ≤ port → port < 0x280 → (port - 0x200) % 64 ≠ 0x19 → (port - 0x200) % 64 ≠ 0x26 →
      c.busy (0x80 + v.toNat % 32) = true → stallsSb d c (oneMove port v sat) = true) ∧
    (portKind port = .trigger → 0x380 ≤ port → port < 0x3C0 → c.div ≠ none → stallsSb d c (oneMove port v sat) = true) ∧
    (port = 0x354 ∨ port = 0x355 ∨ port = 0x364 ∨ port = 0x365 → c.fpi ≠ none →
      stallsSb d c (oneMove port v sat) = true))

/-- R106 to R108, R131, R132, R170, R171. An LSU access outside local memory, not aligned to its size, a store into the
descriptor area, or a load that meets an error that cannot be corrected executes nothing: the pair enters DATA_ERROR
at that bundle with the reason of the first rule broken. A bundle that its encoding makes illegal enters
ILLEGAL_BUNDLE with its reason, and RTI at level 0 enters RTI_AT_LEVEL0; at level 15 either is a double fault: the
pair halts, and its level stays. (Which reason is given where an access or a bundle breaks several rules, and that upsets
are marks of the model, are its choices: log entries 20, 129 and 156.) -/
def Obligations.CoreFaults : Prop :=
  (∀ (i : Instr) (s : State) (p : Pair) (u o : Nat) (v : Word),
    lsuOf i = some (p, u, o, v) → canIssue s p = true → (metCore p s.dev).level ≠ 15 →
    stallsSb (met p s.dev) (metCore p s.dev) (oneMove (0x200 + 64 * u + o) v false) = false →
      let a := (lsuSpan s p o v).1
      let n := (lsuSpan s p o v).2
      let pc := (metCore p s.dev).pc
      (0x80000 ≤ a → Ends i s (fun t => Faulted s t p 3 0x10 pc pc)) ∧
      (a < 0x80000 → a % n ≠ 0 → Ends i s (fun t => Faulted s t p 3 0x11 pc pc)) ∧
      (a < 0x80000 → a % n = 0 → 0x20 ≤ o → 0x7FF00 ≤ a → Ends i s (fun t => Faulted s t p 3 0x12 pc pc)) ∧
      (a < 0x80000 → a % n = 0 → o < 0x20 → ((metCore p s.dev).upsetsIn a n).contains true = true →
        Ends i s (fun t => Faulted s t p 3 0x13 pc pc)) ∧
      (a < 0x80000 → a % n = 0 → (0x20 ≤ o → a < 0x7FF00) →
        (o < 0x20 → ((metCore p s.dev).upsetsIn a n).contains true = false) →
        (lsuFault (metCore p s.dev) (oneMove (0x200 + 64 * u + o) v false)).isNone = true)) ∧
  (∀ (s : State) (p : Pair),
    let c := metCore p s.dev
    (∀ b r n, fetched s p b = true → illegal b = some (r, n) → (bit b 29 && bit (c.num 0xE0) 4) = false →
      (c.level ≠ 15 → Ends (.bundleIssue p) s (fun t => Faulted s t p 1 r c.pc c.pc)) ∧
      (c.level = 15 → Ends (.bundleIssue p) s (fun t => pstate t.dev p = 6 ∧
        ((Machine.core t.dev p).port 0xEC).toNat % 0x10000 = 1 + r * 0x100))) ∧
    (canIssue s p = true → c.level = 0 → Ends (.rti p) s (fun t =>
      ((Machine.core t.dev p).port 0xEC).toNat % 0x100 = 4 ∧ (Machine.core t.dev p).level = 15 ∧
      (Machine.core t.dev p).saved 30 = BitVec.ofNat 64 c.pc ∧ (Machine.core t.dev p).port 0xED = BitVec.ofNat 64 c.pc)))

/-- R96, R98, R99, R102 to R104, R111, R113, R123, R124. A legal bundle that is fetched issues: with no slot in force it
counts in ISSUED and the next bundle follows it, unless an active loop ends there; slots that move to registers send, one
bundle ahead, each the value its source had before the bundle, those whose guard is false nothing; of what lands on one
register then, the move of the later bundle stands. A trigger sees the operand that another slot of its bundle moves,
whichever stands first. A slot that writes MODE has it govern from the ninth bundle after. The synchronised writes that are
due take effect, each on its CSR or on the region it was made for, and the later ones wait; a SYNC bundle leaves none
pending and lands every fixed-latency result. -/
def Obligations.BundlesAndSynchronisedClass : Prop :=
  (∀ (s : State) (p : Pair) (b : Nat), fetched s p b = true → illegal b = none → bit b 29 = false → fmtField b ≠ 2 →
    let c := metCore p s.dev
    (slotsOf b = [] → Ends (.bundleIssue p) s (fun t =>
      (Machine.core t.dev p).port 0xEF = opnd s p 0xEF + 1 ∧
      ((∀ k, k < 3 → c.loopSt k ≠ 1) → (Machine.core t.dev p).pc = (c.pc + 64) % 2 ^ 40))) ∧
    (let guarded (n : Nat) : Bool := ((opnd s p (0xD0 + n % 8)).toNat % 2 == 1) == decide (n < 8)
     let does (sl : Slot) : Bool := sl.guard == 0 || guarded sl.guard
     let value (sl : Slot) : Word :=
       if sl.imm then (BitVec.ofNat 12 sl.src).signExtend 64
       else if sl.src = 0xD8 then (BitVec.ofNat 24 (b % 2 ^ 24)).signExtend 64
       else if sl.src = 0xD9 then BitVec.ofNat 64 (b % 2 ^ 24)
       else if sl.src = 0xDA then BitVec.ofNat 64 c.pc
       else c.port sl.src
     let free (sl : Slot) : Prop := sl.dst < 0xD8 ∧ (sl.imm = true ∨ sl.src < 0xDB) ∧
       (sl.guard ≠ 0 → c.busy (0xD0 + sl.guard % 8) = false) ∧
       (does sl = true → c.busy sl.dst = false ∧ (sl.imm = false → c.busy sl.src = false))
     (∀ sl ∈ slotsOf b, free sl) → Ends (.bundleIssue p) s (fun t =>
       (Machine.core t.dev p).pipe = c.pipe ++ ((slotsOf b).filter does).map
         (fun sl => ⟨c.issued, c.issued + 1, .port sl.dst (value sl)⟩) ∧
       ∀ sl ∈ slotsOf b, does sl = true → sl.dst < 0x80 →
         Ends (.fixedLatencyLand p) t (fun u => (Machine.core u.dev p).port sl.dst = value sl))) ∧
    (∀ (u : Fin 4) n m x y sat sat', n ≠ m →
      slotsOf b = [⟨n, 0, true, x, 0x282 + 32 * u.val, sat'⟩, ⟨m, 0, true, y, 0x289 + 32 * u.val, sat⟩] ∨
      slotsOf b = [⟨m, 0, true, y, 0x289 + 32 * u.val, sat⟩, ⟨n, 0, true, x, 0x282 + 32 * u.val, sat'⟩] →
      c.busy (opnd s p (0x280 + 32 * u.val)).toNat = false →
      Ends (.bundleIssue p) s (fun t => ResultTo s t p (0x280 + 32 * u.val) 1
        (narrow64 sat ((BitVec.ofNat 12 x).toInt + (BitVec.ofNat 12 y).toInt)))) ∧
    (∀ n src dst sat, slotsOf b = [⟨n, 0, true, src, dst, sat⟩] → c.busy dst = false →
      (dst < 0x80 → Ends (.bundleIssue p) s
        (fun t => Sent s t p 1 (.port dst ((BitVec.ofNat 12 src).signExtend 64)))) ∧
      (dst = 0xE0 → Ends (.bundleIssue p) s (fun t =>
        ⟨c.issued + 9, 0xE0, c.num 0xF5, (BitVec.ofNat 12 src).signExtend 64⟩ ∈ (Machine.core t.dev p).sync)))) ∧
  (∀ (s : State) (p : Pair), awake s.dev = true →
    let c := Machine.core s.dev p
    (Ends (.syncClassApply p) s (fun t => (Machine.core t.dev p).sync = c.sync.filter (fun w => decide (c.issued < w.due)))) ∧
    (∀ due sel v, due ≤ c.issued →
      (c.sync = [⟨due, 0xE0, sel, v⟩] →
        Ends (.syncClassApply p) s (fun t => (Machine.core t.dev p).port 0xE0 = v &&& 0x1F)) ∧
      (c.sync = [⟨due, 0xF8, sel, v⟩] →
        Ends (.syncClassApply p) s (fun t => (Machine.core t.dev p).region sel 2 = v &&& 7))) ∧
    (canIssue s p = true → Ends (.syncBundle p) s (fun t => (Machine.core t.dev p).sync = [] ∧
      ((∀ l ∈ c.pipe, l.due ≤ c.issued + 4 ∧ l.eff.isFstat = false) → (∀ w ∈ c.sync, w.port ≠ 0xEF) →
        (Machine.core t.dev p).pipe = []))))

/-- R205 to R207. WAIT begins a wait with the timeout moved, or ends at once where a source of a group in WMASK is pending
and may go to the pair; a wait ends, with the group in WSTAT, when there is one, and with the timeout's bit when its
timeout elapses. The group that ends a wait is the lowest in WMASK that has a pending source whose CORE_EN names the
pair. At the timeout WAIT_CYCLES gains what it has not yet counted of the cycles waited. -/
def Obligations.Waiting : Prop :=
  (∀ (s : State) (p : Pair) (v : Word),
    (issues s p 0x3E1 v false = true →
      (waitGroup s.dev p (opnd s p 0x3E0).toNat = none ∨ s.dev.evc.asleep = true →
        Ends (.wait p v) s (fun t => (Machine.core t.dev p).waiting = some (v.toNat % 2 ^ 32))) ∧
      (∀ g, waitGroup s.dev p (opnd s p 0x3E0).toNat = some g → s.dev.evc.asleep = false → Ends (.wait p v) s (fun t =>
        (Machine.core t.dev p).waiting = none ∧ (Machine.core t.dev p).port 0x3E2 = BitVec.ofNat 64 (1 + g * 16)))) ∧
    (∀ n g, awake s.dev = true → (Machine.core s.dev p).waiting = some n → s.dev.evc.asleep = false →
      waitGroup s.dev p ((Machine.core s.dev p).port 0x3E0).toNat = some g → Ends (.waitWake p) s (fun t =>
        (Machine.core t.dev p).waiting = none ∧ (Machine.core t.dev p).port 0x3E2 = BitVec.ofNat 64 (1 + g * 16))) ∧
    (∀ n, awake s.dev = true → (Machine.core s.dev p).waiting = some n → n ≠ 0 → s.dev.evc.asleep = false →
      Ends (.waitTimeout p) s (fun t => (Machine.core t.dev p).waiting = none ∧ (Machine.core t.dev p).port 0x3E2 = 4 ∧
        rd t.dev (evcWaitCycles p) = min (rd s.dev (evcWaitCycles p) + (n - (Machine.core s.dev p).passed)) 0xFFFFFFFF))) ∧
  (∀ (d : Dev) (n mask g : Nat), waitGroup d n mask = some g ↔
    (g < 32 ∧ bit mask g = true ∧ (∃ i, i < 32 ∧ bit (rd d (evcPend g)) i = true ∧ bit (rd d (evcCfgCoreEn (32 * g + i))) n = true) ∧
      ∀ h, h < g → bit mask h = true →
        ∀ i, i < 32 → bit (rd d (evcPend h)) i = true → bit (rd d (evcCfgCoreEn (32 * h + i))) n = false))

/-- R10, R50, R78, R172, R178. An uncached load of memory lands the little-endian value of its bytes in RES and in the
register DST names; a load that fails lands 0 and enters DATA_ERROR with the reason, the bundle that triggered it in
FAULT_PC, and the next bundle as return address; so does one that no response meets in time. A retry of a core read
whose entry is still torn counts in TORN_COUNT and leaves the load waiting, up to 64 of them; once the entry is no
longer torn the load completes, and the count of tries starts again. -/
def Obligations.ExtLoads : Prop :=
  (∀ (s : State) (p : Pair) (o : ExtOp) (a n : Nat) (sgn : Bool), awake s.dev = true →
    let c := Machine.core s.dev p
    c.ext = [o] → o.work = .load a n sgn 0 → (n = 4 ∨ n = 8) → a % n = 0 → inRam a = true → inTable s.dev a = false → c.wb = [] →
    fenced s.dev a n = false → (windowUpsets s.dev a n).contains true = false →
      let x := rdN s.dev a n
      let w : Word := if n = 4 && sgn then (BitVec.ofNat 32 x).signExtend 64 else BitVec.ofNat 64 x
      let lands (v : Word) (t : State) : Prop := (Machine.core t.dev p).ext = [] ∧ (Machine.core t.dev p).port 0x401 = v ∧
        (dstReg o.dst = true → (Machine.core t.dev p).port o.dst = v &&& BitVec.ofNat 64 (portMask o.dst))
      (Ends (.extLoadResponse p .none) s (lands w)) ∧
      (c.pipe = [] → c.sync = [] → c.entry = none → c.level ≠ 15 →
        Ends (.extLoadResponse p .response) s (fun t => lands 0 t ∧ Faulted s t p 3 0x20 o.pc c.pc) ∧
        Ends (.extLoadResponse p .ecc) s (fun t => lands 0 t ∧ Faulted s t p 3 0x21 o.pc c.pc) ∧
        Ends (.extResponseTimeout p) s (fun t => lands 0 t ∧ Faulted s t p 3 0x22 o.pc c.pc))) ∧
  (∀ (s : State) (p : Pair) (o : ExtOp) (a n attr : Nat) (sgn : Bool), awake s.dev = true →
    nextLoad s.dev p true = some (o, a, n, sgn, attr) →
    let x := (a - chtBase s.dev) / 128
    let tries := tget (fun _ => 0) s.dev.cht.tornTries p
    chtServing s.dev = true → cacheGet s.dev x = none →
      (isTorn s.dev x = true → tries < 64 → Ends (.tornRetry p) s (fun t =>
        (Machine.core t.dev p).ext = (Machine.core s.dev p).ext ∧ tget (fun _ => 0) t.dev.cht.tornTries p = tries + 1 ∧
        rd t.dev chtTornCount = min (rd s.dev chtTornCount + 1) (fldMax chtTornCount))) ∧
      (isTorn s.dev x = false → Ends (.tornRetry p) s (fun t =>
        (Machine.core t.dev p).ext = (Machine.core s.dev p).ext.erase o ∧ tget (fun _ => 0) t.dev.cht.tornTries p = 0)))

/-- R172, R174 to R178, R181. Entries of the write buffer leave in the order they entered, whether their response is good
or not. An uncached store to memory writes its bytes and no others; one that fails writes nothing, nor does a line written back with an error that cannot be corrected, and its error is
entered at once, or waits for the FENCE that waits for it; a FENCE completes when no write and no operation over a
range is left, and then enters that error. A maintenance operation over a range lands the number of lines it affected:
one over the instruction cache leaves no line of the range there; one over a data cache leaves its list wherever the
write buffer has room for every cached line; over a cache that holds one line it cleans, discards, or both, writing a
dirty line back, and discards a line only partly in the range only after writing it back, and with the buffer full it
waits. An IFILL leaves its line in the way named at its trigger, or, failing, lands 0 and enters DATA_ERROR. With none
in progress nothing happens. (How far a range operation gets with the buffer full, and that an IFILL drops other copies of
its line, are the model's choices, log entries 27 and 28; of several write errors the first is entered, log entry 158.) -/
def Obligations.WriteBufferAndMaintenance : Prop :=
  (∀ (s : State) (p : Pair), awake s.dev = true →
    let c := Machine.core s.dev p
    (∀ (e : WbEnt) (rest : List WbEnt), c.wb = e :: rest →
      (∀ err, err ≠ .none → ∃ t, exec (.writeBufferSend p err) s = .next t ∧ (Machine.core t.dev p).wb = rest) ∧
      (e.uncached = false → ∃ t, exec (.writeBufferSend p .none) s = .next t ∧ (Machine.core t.dev p).wb = rest) ∧
      (e.bad = true → c.fence = false → c.entry = none → c.level ≠ 15 → Ends (.writeBufferSend p .none) s (fun t =>
        (Machine.core t.dev p).wb = rest ∧ (c.pipe = [] → t.dev.mem = s.dev.mem) ∧ Faulted s t p 3 0x21 e.pc c.pc))) ∧
    (c.wb = [] → ∀ err, exec (.writeBufferSend p err) s = .next s) ∧
    (∀ (a n : Nat) (data : List Byte) (pc : Nat) (rest : List WbEnt), c.wb = ⟨a, cells a data, true, pc, false⟩ :: rest →
      data.length = n → (n = 4 ∨ n = 8) → a % n = 0 → inRam a = true → guardOf s.dev a n = none → fenced s.dev a n = false →
      ∃ t, exec (.writeBufferSend p .none) s = .next t ∧ (Machine.core t.dev p).wb = rest ∧
        (∀ i (h : i < data.length), rdB t.dev (a + i) = data[i]) ∧
        (∀ x, x < a ∨ a + n ≤ x → rdB t.dev x = rdB s.dev x)) ∧
    (∀ (e : WbEnt) (rest : List WbEnt), c.wb = e :: rest → c.fence = true →
      Ends (.writeBufferSend p .response) s (fun t => (Machine.core t.dev p).wb = rest ∧ t.dev.mem = s.dev.mem ∧
        (Machine.core t.dev p).fenceErr = some (c.fenceErr.getD (0x20, e.pc)))) ∧
    (∀ (e : WbEnt) (rest : List WbEnt), c.wb = e :: rest → c.fence = false → c.entry = none → c.level ≠ 15 →
      Ends (.writeBufferSend p .response) s (fun t => (Machine.core t.dev p).wb = rest ∧ Faulted s t p 3 0x20 e.pc c.pc)) ∧
    (c.fence = true → c.wb = [] → c.ext.any ExtOp.isRange = false →
      (c.fenceErr = none → ∃ t, exec (.fenceComplete p) s = .next t ∧ (Machine.core t.dev p).fence = false ∧
        (Machine.core t.dev p).pc = c.pc) ∧
      (∀ r pc, c.fenceErr = some (r, pc) → r < 0x100 → c.entry = none → c.level ≠ 15 →
        Ends (.fenceComplete p) s (fun t => (Machine.core t.dev p).fence = false ∧ Faulted s t p 3 r pc c.pc))) ∧
    ((c.fence = false ∨ c.wb ≠ [] ∨ c.ext.any ExtOp.isRange = true) → exec (.fenceComplete p) s = .next s)) ∧
  (∀ (s : State) (p : Pair) (dst pc start stop : Nat), awake s.dev = true →
    let c := Machine.core s.dev p
    (c.ext.any ExtOp.isRange = false → ∀ err, exec (.rangeOpDone ⟨p, err⟩) s = .next s) ∧
    (∀ err, c.ext.find? ExtOp.isRange = some ⟨dst, pc, .irange start stop⟩ → ∃ t, exec (.rangeOpDone ⟨p, err⟩) s = .next t ∧
      (Machine.core t.dev p).ext = c.ext.erase ⟨dst, pc, .irange start stop⟩ ∧
      (∀ e ∈ (Machine.core t.dev p).icache, ∀ l, e.2 = some l → l.1 + 64 ≤ start ∨ stop ≤ l.1) ∧
      (Machine.core t.dev p).port 0x401 = BitVec.ofNat 64 (c.icache.length - (Machine.core t.dev p).icache.length)) ∧
    (∀ err kind n, c.ext.find? ExtOp.isRange = some ⟨dst, pc, .range kind start stop n⟩ → c.wb.length + c.dcache.length ≤ 8 →
      ∃ t k, exec (.rangeOpDone ⟨p, err⟩) s = .next t ∧ k ≤ c.dcache.length ∧
        (Machine.core t.dev p).ext = c.ext.erase ⟨dst, pc, .range kind start stop n⟩ ∧
        (Machine.core t.dev p).port 0x401 = BitVec.ofNat 64 (n + k)) ∧
    (∀ (err : MemErr) (k : Nat) (l : DLine) (kind : Nat), c.ext = [⟨dst, pc, .range kind start stop 0⟩] →
      c.dcache = [(k, some l)] → kind ≤ 2 →
      let inside := decide (start < l.addr + 64 ∧ l.addr < stop)
      let whole := decide (start ≤ l.addr ∧ l.addr + 64 ≤ stop)
      let hit := inside && (kind != 0 || l.dirty)
      let back := hit && l.dirty && (kind != 1 || !whole)
      (c.wb.length < 8 ∨ back = false → Ends (.rangeOpDone ⟨p, err⟩) s (fun t => (Machine.core t.dev p).ext = [] ∧
        (Machine.core t.dev p).port 0x401 = (if hit then 1 else 0) ∧
        (Machine.core t.dev p).wb = (if back then
          c.wb ++ [⟨l.addr, cells l.addr l.data, false, pc, (c.upsetsIn (0x80000 + 64 * k) 64).contains true⟩] else c.wb) ∧
        tget (fun _ => none) (Machine.core t.dev p).dcache k =
          (if hit then (if kind = 0 then some { l with dirty := false } else none) else some l))) ∧
      (8 ≤ c.wb.length → back = true → Ends (.rangeOpDone ⟨p, err⟩) s (fun t =>
        (Machine.core t.dev p).ext = c.ext ∧ (Machine.core t.dev p).wb = c.wb ∧ (Machine.core t.dev p).dcache = c.dcache))) ∧
    (∀ a way, c.ext = [⟨dst, pc, .ifill a way⟩] →
      (inRam a = true → fenced s.dev (a / 64 * 64) 64 = false → Ends (.rangeOpDone ⟨p, .none⟩) s (fun t => (Machine.core t.dev p).ext = [] ∧
        (Machine.core t.dev p).port 0x401 = 1 ∧
        tget (fun _ => none) (Machine.core t.dev p).icache (way * 512 + a / 64 % 512) =
          some (a / 64 * 64, rdN s.dev (a / 64 * 64) 64))) ∧
      (c.entry = none → c.level ≠ 15 →
        Ends (.rangeOpDone ⟨p, .response⟩) s (fun t => (Machine.core t.dev p).ext = [] ∧ Faulted s t p 3 0x20 pc c.pc) ∧
        Ends (.rangeOpDone ⟨p, .ecc⟩) s (fun t => (Machine.core t.dev p).ext = [] ∧ Faulted s t p 3 0x21 pc c.pc))))

/-- R107, R178, R180. The line a fetch waits for arrives from memory, and the bundle there is the next to be fetched from its
address; a failed fetch enters FETCH_ERROR. -/
def Obligations.FetchMiss : Prop :=
  ∀ (s : State) (p : Pair) (a : Nat), awake s.dev = true →
    let c := Machine.core s.dev p
    c.miss = some a → inRam a = true →
      (fenced s.dev a 64 = false → Ends (.icacheMissFill p .none) s (fun t => (Machine.core t.dev p).miss = none ∧
        (Machine.core t.dev p).queue.find? (fun e => e.1 == a) = some (a, rdN s.dev a 64))) ∧
      (c.entry = none → c.level ≠ 15 → Ends (.icacheMissFill p .response) s (fun t =>
        ((Machine.core t.dev p).port 0xEC).toNat % 0x100 = 2 ∧ (Machine.core t.dev p).level = 15 ∧ (Machine.core t.dev p).miss = none ∧
        (Machine.core t.dev p).port 0xED = BitVec.ofNat 64 c.pc))

/-! ### The event controller -/

/-- R191, R192, R200. What an input does to its source while the EVC is awake: RAW shows the new level; a rising edge of
an edge-triggered source that is neither pending nor presented makes it pending, and one of a level source that is not
held; a level source that is not held stops pending when its input falls. A captured pulse reaches RAW once and leaves
it 0. SWSET makes an ordinary source pending, whatever its trigger, and a source already pending counts as merged; the
reserved sources ignore it. A clear of PEND leaves a source pending only if it is a level source whose input still
asserts it and that no core holds. -/
def Obligations.EvcSources : Prop :=
  (∀ (s : State) (src : Fin 1024), awake s.dev = true → s.dev.evc.asleep = false →
    let d := s.dev
    let pend (t : State) : Bool := srcBit t.dev evcPend src
    (∀ v, inputLevel d src = some v → v ≠ srcBit d evcRaw src → Ends (.evcRawChange src) s (fun t =>
      srcBit t.dev evcRaw src = v ∧
      (isEdge d src = true → presentedTo d src = none →
        pend t = (srcBit d evcPend src || v) ∧
        rd t.dev evcMergedCount = (if v && srcBit d evcPend src then min (rd d evcMergedCount + 1) 0xFFFFFFFF
          else rd d evcMergedCount)) ∧
      (isEdge d src = false → heldSrc d src = false → pend t = v))) ∧
    (isPulse src = true → src.val ∈ d.evc.pulses → Ends (.evcPulseCapture src) s (fun t =>
      src.val ∉ t.dev.evc.pulses ∧ srcBit t.dev evcRaw src = false ∧
      (isEdge d src = true → presentedTo d src = none → srcBit d evcRaw src = false → pend t = true)))) ∧
  (∀ (s : State) (ini : Initiator) (src : Fin 1024),
    let d := s.dev
    (accepted s ini (evcSwset (src.val / 32)).off (2 ^ (src.val % 32)) = true → presentedTo d src = none →
      (src.val < 576 → Ends (.evcSwset ini src) s (fun t => srcBit t.dev evcPend src = true ∧
        (srcBit d evcPend src = true → rd t.dev evcMergedCount = min (rd d evcMergedCount + 1) 0xFFFFFFFF))) ∧
      (576 ≤ src.val → Ends (.evcSwset ini src) s (fun t => t.dev.regs = d.regs))) ∧
    (accepted s ini (evcPend (src.val / 32)).off (2 ^ (src.val % 32)) = true → presentedTo d src = none →
      Ends (.evcPendClear ini src) s (fun t =>
        srcBit t.dev evcPend src = (!isEdge d src && srcBit d evcRaw src && !heldSrc d src))))

/-- R190, R194 to R196, R198, R199. At an edge with one source pending, free of hold-off, and a core that can take it
next, the source is presented to that core, which goes to its level. Its acknowledgement confirms it: the source is
ACTIVE there and no longer pending, RR names the core, the delivery counts, the hold-off is loaded, and the core goes
to the vector. A completion by the pair on which a source is ACTIVE releases it, and a level source whose input is 1
is pending again; any other completion changes nothing but the count and the record of spurious ones. When the
interval of a group ends nothing of it remains; in sleep it does not end. A more urgent source presented to a core whose
entry is in progress takes it over: the save slot of the new level holds what the slot of the earlier one held, and the
earlier source stays, or is again, pending, not ACTIVE, with RR and DELIVERED unchanged (R130, R196); so is one whose core
cannot take it when the acknowledgement is sampled. (That a source confirmed before it was taken over is pending again,
with its delivery counted, is the model's choice, log entries 29 and 160.) -/
def Obligations.EvcDelivery : Prop :=
  (∀ (s : State) (n : Pair) (src : Fin 1024), awake s.dev = true →
    let d := stillCheck s.dev
    (flag d (hdrActive .evc) = true → d.evc.asleep = false → pendingSrcs d = [src.val] → rd d (evcHoldoff (src.val / 32)) = 0 →
      nextCore d src [] = some n.val → (Machine.core d n).entry = none →
      Ends .evcPresent s (fun t => tget (fun _ => none) t.dev.evc.presented n = some src.val ∧
        (Machine.core t.dev n).entry = some ⟨src, srcLevel d src, rd d (evcVector src) * 64, false⟩ ∧
        (Machine.core t.dev n).level = srcLevel d src ∧
        (Machine.core t.dev n).saved (2 * srcLevel d src) = BitVec.ofNat 64 (Machine.core d n).pc)) ∧
    (∀ e, flag d (hdrActive .evc) = true → d.evc.asleep = false → pendingSrcs d = [src.val] →
      rd d (evcHoldoff (src.val / 32)) = 0 → nextCore d src [] = some n.val → (Machine.core d n).entry = some e →
      e.src < 1024 → e.src ≠ src.val →
      (if e.confirmed then srcBit d evcActive e.src = true else
        tget (fun _ => none) d.evc.presented n = some e.src ∧ srcBit d evcPend e.src = true ∧ srcBit d evcActive e.src = false) →
      Ends .evcPresent s (fun t => tget (fun _ => none) t.dev.evc.presented n = some src.val ∧
        (Machine.core t.dev n).entry = some ⟨src, srcLevel d src, rd d (evcVector src) * 64, false⟩ ∧
        (Machine.core t.dev n).level = srcLevel d src ∧
        ((Machine.core d n).pipe = [] → ∀ i, i < 2 →
          (Machine.core t.dev n).saved (2 * srcLevel d src + i) = (Machine.core d n).saved (2 * e.level + i)) ∧
        srcBit t.dev evcPend e.src = true ∧ srcBit t.dev evcActive e.src = false ∧
        rd t.dev (evcCfgRr e.src) = rd d (evcCfgRr e.src) ∧ rd t.dev (evcDelivered n) = rd d (evcDelivered n))) ∧
    (tget (fun _ => none) s.dev.evc.presented n = some src.val → canServe s.dev n = false →
      Ends (.evcAckSample n) s (fun t => tget (fun _ => none) t.dev.evc.presented n = none ∧
        srcBit t.dev evcPend src = srcBit s.dev evcPend src ∧ srcBit t.dev evcActive src = srcBit s.dev evcActive src ∧
        rd t.dev (evcCfgRr src) = rd s.dev (evcCfgRr src) ∧ rd t.dev (evcDelivered n) = rd s.dev (evcDelivered n))) ∧
    (∀ e, tget (fun _ => none) s.dev.evc.presented n = some src.val → (Machine.core s.dev n).entry = some e → e.src = src.val →
      1 ≤ e.level → e.level ≤ 15 → e.confirmed = false → canServe s.dev n = true → src.val ∉ s.dev.evc.again →
      Ends (.evcAckSample n) s (fun t => tget (fun _ => none) t.dev.evc.presented n = none ∧
        srcBit t.dev evcActive src = true ∧ srcBit t.dev evcPend src = false ∧ rd t.dev (evcCfgRr src) = n.val ∧
        rd t.dev (evcDelivered n) = min (rd s.dev (evcDelivered n) + 1) 0xFFFFFFFF ∧
        rd t.dev (evcHoldRemain (src.val / 32)) = rd s.dev (evcHoldoff (src.val / 32)) ∧
        (Machine.core t.dev n).entry = some { e with confirmed := true } ∧ (Machine.core t.dev n).pc = bundleAt e.vector))) ∧
  (∀ (s : State) (n : Pair) (v : W32) (g : Fin 32),
    let d := s.dev
    let src := v.toNat % 1024
    (accepted s (.core n) (0x20040 + 4 * n.val) v.toNat = true →
      (∀ k, activeLevel d n src = some k → Ends (.evcComplete (.core n) n v) s (fun t =>
        srcBit t.dev evcActive src = false ∧ flag t.dev (evcActValid n k) = false ∧
        (presentedTo d src = none → isEdge d src = false → srcBit d evcRaw src = true → srcBit t.dev evcPend src = true))) ∧
      (activeLevel d n src = none → Ends (.evcComplete (.core n) n v) s (fun t =>
        rd t.dev evcSpuriousComplete = min (rd d evcSpuriousComplete + 1) 0xFFFFFFFF ∧
        rd t.dev evcLastSpuriousSrc = src ∧ rd t.dev evcLastSpuriousCore = n.val ∧
        (∀ x, srcBit t.dev evcActive x = srcBit d evcActive x)))) ∧
    (awake d = true → d.evc.asleep = false → Ends (.evcHoldoffExpire g) s (fun t => rd t.dev (evcHoldRemain g.val) = 0)) ∧
    (d.evc.asleep = true → Ends (.evcHoldoffExpire g) s (fun t => t = s)))

/-- R207, R209, R210. When the stillness count is reached in an EVC that is awake, the watched group waits and STILL has not fired in this spell,
STILL is pending and counted. A sleep request with no watched source is refused with its error code, and one with a watched
source is pending until it is cancelled, until its conditions hold and the EVC sleeps, or until a watched source stirs; a
watched source wakes a sleeping EVC, is recorded, and is pending or held. -/
def Obligations.StillnessAndSleep : Prop :=
  ∀ (s : State) (ini : Initiator) (i : Fin 32),
    let d := s.dev
    let c := stillCheck d
    (awake d = true → rd c evcStillLimit ≠ 0 → stillGroup c ≠ [] → allWait c = true → c.evc.fired = false →
      c.evc.asleep = false →
      Ends .stillFire s (fun t => srcBit t.dev evcPend 24 = true ∧ t.dev.evc.fired = true ∧ rd t.dev evcStillCount = 0 ∧
        rd t.dev evcStillFired = min (rd d evcStillFired + 1) 0xFFFFFFFF)) ∧
    (accepted s ini evcSleepPend.off 1 = true →
      (anyAonSel d = true → Ends (.sleepReq ini) s (fun t => flag t.dev evcSleepPend = true)) ∧
      (anyAonSel d = false → rd d (hdrCode .evc) = 0 → Ends (.sleepReq ini) s (fun t =>
        rd t.dev (hdrCode .evc) = 0x100 ∧ rd t.dev evcSleepPend = rd d evcSleepPend))) ∧
    (accepted s ini evcSleepPend.off 2 = true → Ends (.sleepCancel ini) s (fun t => flag t.dev evcSleepPend = false)) ∧
    (awake d = true → maySleep d = true → d.evc.asleep = false → Ends .sleepEnter s (fun t =>
      t.dev.evc.asleep = true ∧ flag t.dev evcSleepPend = false)) ∧
    (awake d = true → (flag d (evcAonSelValid i.val) = false ∨ aonMet d (rd d (evcAonSelSrc i.val)) = false) →
      Ends (.aonWake i) s (fun t => t = s)) ∧
    (awake d = true → flag d (evcAonSelValid i.val) = true → aonMet d (rd d (evcAonSelSrc i.val)) = true →
      (d.evc.asleep = true → Ends (.aonWake i) s (fun t =>
        t.dev.evc.asleep = false ∧ rd t.dev evcWakeSrcEntry = i.val ∧ flag t.dev evcWakeSrcValid = true ∧
        (srcBit t.dev evcPend (rd d (evcAonSelSrc i.val)) = true ∨ heldSrc t.dev (rd d (evcAonSelSrc i.val)) = true))) ∧
      (d.evc.asleep = false → Ends (.aonWake i) s (fun t => flag t.dev evcSleepPend = false)))

/-! ### The module as a whole -/

/-- The block takes the command that has waited longest, with the others still waiting; with none waiting it idles (the
model's choice, log entry 1). -/
def Obligations.StepTakesTheFirstCommand : Prop :=
  ∀ s : State,
    (∀ c rest, s.pending = c :: rest → step s = exec c { s with pending := rest }) ∧ (s.pending = [] → step s = .next s)

/-- Every command completes, and leaves the commands that wait as they are; so `n` steps perform the first `n` commands
that wait, whatever they are, and leave the others. The queue of commands is the model's own (log entry 1). -/
def Obligations.QueueRunsInOrder : Prop :=
  (∀ (c : Instr) (s : State), Ends c s (fun t => t.pending = s.pending)) ∧
    ∀ (n : Nat) (s : State), n ≤ s.pending.length →
      ∃ t : State, Sys2Proof.core.run n s = .next t ∧ t.pending = s.pending.drop n

/-- R387, R389. Whatever the step, a module that drives its ownership line low exactly in OWNER and ALONE, and runs its
heartbeat exactly in OWNER, PARTNER and ALONE, still does so after it; and memory and the register file keep their
canonical form, in which equal memories are equal data. -/
def Obligations.RoleInvariant : Prop :=
  ∀ s t : State, step s = .next t →
    (roleOk s.role = true → roleOk t.role = true) ∧ (memOk s.dev = true → memOk t.dev = true) ∧
      (regsOk s.dev = true → regsOk t.dev = true)

/-- R17, R19, R105, R220, R387, R389, R416. At reset nothing waits, the twin role is sound, memory and the register file have
their canonical form, and registers hold the reset values the manual gives. Where it gives none the values are the model's:
memory (log entry 2), straps and values of the part (log entry 3), RATE_48 (log entry 50) and the registers of a core
(log entry 109). -/
def Obligations.ResetState : Prop :=
  let s := State.reset
  s.pending = [] ∧ roleOk s.role = true ∧ s.role.state = .startUp ∧ s.role.ownLow = false ∧ s.role.beating = false ∧
    memOk s.dev = true ∧ regsOk s.dev = true ∧ (∀ a, rdw s.dev a = regReset a) ∧
    rd s.dev spElemLimit = 0x1000 ∧ (∀ h : Hue, rd s.dev (hdrOwner (.hue h)) = h.val) ∧
    (∀ b : Blk, flag s.dev (hdrSoftRst b) = false) ∧ (∀ p n, (Machine.core s.dev p).port n = portReset n)

/-- R424, R428. A module without power, or off-ready after a shut-down, changes nothing at any command but those of its
supply and its reset. That an off-ready module ignores all others is the model's choice (log entry 95). -/
def Obligations.OffModule : Prop :=
  ∀ (c : Instr) (s : State), awake s.dev = false → ofSupply c = false → exec c s = .next s

/-- R16, R19, R38, R44, R45, R47 to R51, R57, R81, R251, R421, R459. What a write access does: unmapped ones are counted and
change nothing else, a page refuses other sizes than 4 and 8 bytes and what the initiator may not write, memory takes the
bytes, a guarded table refuses them; sizes that no rule gives are refused so too, as log entry 9 reads R39 and R47. A burst is
one access: it is taken or refused whole, and counts once. A write performed on a register whose block does no more with it than
hold it changes that word alone: bits for reading and writing take the value, flags clear where 1 is written, counters clear,
and read-only and reserved bits stay; a reserved encoding is taken so too, and captured with BAD_VALUE and its offset. A
64-bit write performs its low word and then its high one. Staging data is held by its slot, and doorbell data and
CONS_Q by their port. A write of ERR_CODE clears it only with zero, and any write clears ERR_COUNT; a read of a low timestamp
word latches the high one. -/
def Obligations.RegisterAccesses : Prop :=
  ∀ (s : State) (ini : Initiator), awake s.dev = true →
    (∀ (a : Addr) (data : Word) (n : Fin 9),
      let write := Instr.registerWrite ini a (.word data) n
      ((reaches ini a.toNat = false ∨ placeOf a.toNat = .hole ∨ placeOf a.toNat = .rom) →
        Does write s (fun d => d = inc s.dev modUnmappedCount)) ∧
      (placeOf a.toNat = .ram → reaches ini a.toNat = true → fenced s.dev a.toNat n.val = true →
        Does write s (fun d => d = inc s.dev modUnmappedCount)) ∧
      (placeOf a.toNat = .ram → reaches ini a.toNat = true → memForm a.toNat n.val = true → fenced s.dev a.toNat n.val = false →
        (guardOf s.dev a.toNat n.val = none → Does write s (fun d => d.regs = s.dev.regs ∧
          (∀ i, i < n.val → rdB d (a.toNat + i) = BitVec.ofNat 8 (data.toNat / 256 ^ i)) ∧
          (∀ x, x < a.toNat ∨ a.toNat + n.val ≤ x → rdB d x = rdB s.dev x))) ∧
        (∀ b, guardOf s.dev a.toNat n.val = some b → Does write s (fun d => d = countGuard b s.dev ∧ d.mem = s.dev.mem))) ∧
      (∀ b off, placeOf a.toNat = .page b off → reaches ini a.toNat = true →
        (¬((n.val = 4 ∧ a.toNat % 4 = 0) ∨ (n.val = 8 ∧ a.toNat % 8 = 0)) →
          Does write s (fun d => d = inc s.dev (hdrAccessErr b))) ∧
        (n.val = 4 → a.toNat % 4 = 0 → underTest s.dev b = false →
          (mayWrite57 s.dev ini b off = false → Does write s (fun d => d.mem = s.dev.mem ∧
            rd d (hdrAccessErr b) = min (rd s.dev (hdrAccessErr b) + 1) (2 ^ 32 - 1) ∧
            (∀ x, x ≠ (hdrAccessErr b).off → x < 0x70000 ∨ 0x71000 ≤ x → rdw d x = rdw s.dev x))) ∧
          (mayWrite57 s.dev ini b off = true → hwOwned s.dev ini b off (data.toNat % 2 ^ 32) = true →
            Does write s (fun d => d = inc s.dev (hdrAccessErr b))))) ∧
      (n.val = 8 → a.toNat % 8 = 0 → reaches ini a.toNat = true → (∃ b off, placeOf a.toNat = .page b off) →
        ∃ t, exec (.registerWrite ini a (.word (BitVec.ofNat 64 (data.toNat % 2 ^ 32))) 4) s = .next t ∧
          (awake t.dev = true →
            exec write s = exec (.registerWrite ini (a + 4) (.word (BitVec.ofNat 64 (data.toNat / 2 ^ 32))) 4) t))) ∧
    (∀ (a : Addr) (l : List (Fin 128 × Byte)) (n : Fin 9),
      let write := Instr.registerWrite ini a (.burst l) n
      let base := a.toNat / 128 * 128
      ((reaches ini a.toNat = false ∨ placeOf a.toNat = .hole ∨ placeOf a.toNat = .rom) →
        Does write s (fun d => d = inc s.dev modUnmappedCount)) ∧
      (∀ b off, placeOf a.toNat = .page b off → reaches ini a.toNat = true →
        Does write s (fun d => d = inc s.dev (hdrAccessErr b))) ∧
      (placeOf a.toNat = .ram → reaches ini a.toNat = true → fenced s.dev base 128 = false →
        (∀ b, l.findSome? (fun c => guardOf s.dev (base + c.1.val) 1) = some b → Does write s (fun d => d = countGuard b s.dev)) ∧
        ((∀ c ∈ l, guardOf s.dev (base + c.1.val) 1 = none) → (l.map Prod.fst).Nodup → Does write s (fun d =>
          d.regs = s.dev.regs ∧ (∀ c ∈ l, rdB d (base + c.1.val) = c.2) ∧
          ∀ x, (∀ c ∈ l, x ≠ base + c.1.val) → rdB d x = rdB s.dev x)))) ∧
    (∀ (a : Addr) (b : Blk) (off : Nat) (r : RegRow) (v : W32), a.toNat = 0x40000000 + off →
      placeOf a.toNat = .page b off → accepted s ini off v.toNat = true → heldOnly b (off - blkBase b) = true → rowAt off = some r →
      let write := Instr.registerWrite ini a (.word (v.setWidth 64)) 4
      let taken (d : Dev) : Prop := ∀ i, i < 32 → (rdw d off).getLsbD i =
        (!r.clr.testBit i && !(r.w1c.testBit i && v.getLsbD i) && (if r.rw.testBit i then v.getLsbD i else (rdw s.dev off).getLsbD i))
      (resvEnc s.dev b (off - blkBase b) v.toNat = false → Does write s (fun d => taken d ∧ d.mem = s.dev.mem ∧
        ∀ x, x ≠ off → rdw d x = rdw s.dev x)) ∧
      (resvEnc s.dev b (off - blkBase b) v.toNat = true → flag s.dev (hdrHalt b) = false → Does write s (fun d => taken d ∧
        Captured b 1 s.dev d ∧ (rd s.dev (hdrCode b) = 0 → rd d (hdrDetail b) = (off - blkBase b) % 2 ^ 16)))) ∧
    (∀ (a : Addr) (b : Blk) (v : W32), a.toNat = 0x40000000 + blkBase b + 0x14 → accepted s ini (blkBase b + 0x14) v.toNat = true →
      Does (.registerWrite ini a (.word (v.setWidth 64)) 4) s (fun d =>
        rdw d (blkBase b + 0x14) = rdw s.dev (blkBase b + 0x14) &&& ~~~v ∧ ∀ x, x ≠ blkBase b + 0x14 → rdw d x = rdw s.dev x)) ∧
    (∀ (a : Addr) (h : Hue) (port : Byte) (v : W32) (j : Nat),
      let write := Instr.registerWrite ini a (.word (v.setWidth 64)) 4
      let kept (d : Dev) (i : Nat) : Prop := d.regs = s.dev.regs ∧ d.mem = s.dev.mem ∧ d.commit = s.dev.commit ∧
        ∀ g q k, (g, q, k) ≠ (h.val, port.toNat, i) → g < 16 → q < 256 → k < 17 → stagedGet d g q k = stagedGet s.dev g q k
      (j < 16 → a.toNat = 0x40000000 + bellOff h port + 4 * j → accepted s ini (bellOff h port + 4 * j) v.toNat = true →
        Does write s (fun d => stagedGet d h.val port.toNat j = v ∧ kept d j)) ∧
      (a.toNat = 0x40000000 + bellOff h port + 0x44 → accepted s ini (bellOff h port + 0x44) v.toNat = true →
        Does write s (fun d => stagedGet d h.val port.toNat 16 = BitVec.ofNat 32 (v.toNat % 2 ^ 15) ∧ kept d 16))) ∧
    (∀ (b : Blk) (v : W32), accepted s ini (blkBase b + 0x1C) v.toNat = true →
      Does (.errCodeWrite ini b v) s (fun d =>
        if v = 0 then rd d (hdrCode b) = 0 ∧ rd d (hdrDetail b) = 0 ∧ flag d (hdrError b) = false else d = s.dev)) ∧
    (∀ (b : Blk) (a : Addr), a.toNat = 0x40000000 + blkBase b + 0x20 → accepted s ini (blkBase b + 0x20) 0 = true →
      Does (.counterClear ini a) s (fun d => rd d (hdrErrCount b) = 0 ∧
        ∀ x, x ≠ blkBase b + 0x20 → rdw d x = rdw s.dev x)) ∧
    (∀ (a : Addr) (b : Blk) (off : Nat), placeOf a.toNat = .page b off → reaches ini a.toNat = true →
      underTest s.dev b = false → a.toNat % 4 = 0 → stampLow b (off - blkBase b) = true →
      Does (.timestampLowRead ini a) s (fun d => d.regs = s.dev.regs ∧ d.mem = s.dev.mem ∧
        tget (fun _ => none) d.latch (latchKey ini off) = some (BitVec.ofNat 32 (regLive s.role s.dev b (off + 4)))))

/-- R46, R53, R54. The states of a block: EN set starts it, or waits for the end of a quiesce; EN cleared quiesces it; the
quiesce ends once no work is left, at the tick in a block that stops there, or with an error after its time; a soft
reset stops it and, once complete, leaves its registers at their reset values but for HALT_ON_ERR and what keeps its
value. EN is not cleared in a twin link that OWNER or PARTNER uses, nor in a pair that the schedule gives skeins (R383,
R412), and not set in a block that failed its last test (R417, R421). What the word of SOFT_RST holds besides, what
HALT_ON_ERR reads meanwhile, and that blocks of the frame stop at the tick are the model's choices (log entries 8, 118
and 96). -/
def Obligations.BlockStates : Prop :=
  ∀ (s : State) (ini : Initiator) (b : Blk), awake s.dev = true →
    let d := s.dev
    let halt := 4 * rd d (hdrHalt b)
    (accepted s ini (blkBase b + 8) (1 + halt) = true → testFailed d b = true → Does (.enSet ini b) s (fun t =>
      flag t (hdrEn b) = flag d (hdrEn b) ∧ flag t (hdrActive b) = flag d (hdrActive b))) ∧
    (accepted s ini (blkBase b + 8) (1 + halt) = true → testFailed d b = false → Does (.enSet ini b) s (fun t => flag t (hdrEn b) = true ∧
      (flag d (hdrActive b) = true → flag t (hdrActive b) = true ∧ t.mem = d.mem) ∧
      (flag d (hdrActive b) = false → flag d (hdrQuiescing b) = false → flag t (hdrActive b) = true) ∧
      (flag d (hdrActive b) = false → flag d (hdrQuiescing b) = true →
        flag t (hdrPendEn b) = true ∧ flag t (hdrActive b) = false))) ∧
    (accepted s ini (blkBase b + 8) halt = true → flag d (hdrEn b) = true →
      (b = .twin → s.role.state ≠ .owner ∧ s.role.state ≠ .partner) → (∀ p, b = .ply p → actMask d p.val = 0) →
      Does (.enClear ini b) s (fun t => flag t (hdrEn b) = false ∧ flag t (hdrActive b) = false ∧
        flag t (hdrPendEn b) = false ∧ (flag d (hdrActive b) = true → flag t (hdrQuiescing b) = true))) ∧
    (accepted s ini (blkBase b + 8) halt = true → flag d (hdrEn b) = true →
      ((b = .twin ∧ (s.role.state = .owner ∨ s.role.state = .partner)) ∨ ∃ p, b = .ply p ∧ actMask d p.val ≠ 0) →
      Does (.enClear ini b) s (fun t => Captured b 0x0107 d t ∧ (flag d (hdrHalt b) = false → flag t (hdrEn b) = true))) ∧
    (accepted s ini (blkBase b + 8) 2 = true →
      Ends (.softRst ini b) s (fun t => t.pending = s.pending ∧ flag t.dev (hdrSoftRst b) = true ∧
        flag t.dev (hdrEn b) = false ∧ flag t.dev (hdrActive b) = false ∧ flag t.dev (hdrQuiescing b) = false ∧
        (b ≠ .twin → t.role = s.role ∧ flag t.dev (hdrPendEn b) = false ∧ flag t.dev (hdrHalt b) = false))) ∧
    (flag d (hdrSoftRst b) = false → Does (.softRstComplete b) s (fun t => t = d)) ∧
    (flag d (hdrSoftRst b) = true → flag d (hdrPendEn b) = false → Does (.softRstComplete b) s (fun t =>
      flag t (hdrSoftRst b) = false ∧ flag t (hdrEn b) = false ∧ flag t (hdrActive b) = false ∧
      rd t (hdrHalt b) = rd d (hdrHalt b) ∧
      (b ≠ .seq → b ≠ .rel → t.mem = d.mem ∧ ∀ x, blkAt x = some b → x ≠ blkBase b + 8 → keepOnReset b x = 0 →
        (b = .bobbin → x ≠ (hdrEvtFlag .bobbin).off ∧ x ≠ bobGuardCount.off) → rdw t x = regReset x))) ∧
    (flag d (hdrSoftRst b) = true → flag d (hdrPendEn b) = true → testFailed d b = false → Does (.softRstComplete b) s (fun t =>
      flag t (hdrSoftRst b) = false ∧ flag t (hdrEn b) = true ∧ flag t (hdrActive b) = true)) ∧
    ((tickBlk b = true ∨ workLeft b d = true) → Does (.quiesceComplete b) s (fun t => t = d)) ∧
    (tickBlk b = false → workLeft b d = false → flag d (hdrQuiescing b) = true → Does (.quiesceComplete b) s (fun t =>
      flag t (hdrQuiescing b) = false ∧ flag t (hdrPendEn b) = false ∧
      (flag d (hdrPendEn b) = true → flag t (hdrActive b) = true))) ∧
    (flag d (hdrQuiescing b) = false → Does (.quiesceTimeout b) s (fun t => t = d)) ∧
    (flag d (hdrQuiescing b) = true → Does (.quiesceTimeout b) s (fun t => flag t (hdrPendEn b) = false ∧
      flag t (hdrQuiescing b) = false ∧ (rd d (hdrCode b) = 0 → rd t (hdrCode b) = 2) ∧
      (b ≠ .wear → rd t (hdrErrCount b) = min (rd d (hdrErrCount b) + 1) (2 ^ 32 - 1))))

/-- R28, R29, R79, R81, R83, R84, R244, R252, R257, R293, R295, R302, R324, R330, R331, R353, R355, R360, R398, R458. A control
change that a register write asks for is numbered after every change before it and held until its commit point, in a module that
is not PARTNER; a partner forwards it to the owner, but drops the changes of its own core pairs that concern both modules. What
each does there, as the one change of a tick in ALONE: an invalidation marks its copies; a staging edit is checked, and written
with the next generation; an ARM is refused for the first reason that holds, or arms its bank, and a CANCEL disarms in time or is
counted; a context write is judged and takes effect; doorbells work on their ring; a hue reset begins; streams are enabled and
disabled, or refused; a PTP step waits for the next tick; a night window is armed or ended, baselines adopted or loaded, tables
and records of WEAR installed, a tag pass started or aborted; a key floor rises. (When a QUIET, JOINING or start-up module's own
changes apply is the model's choice, log entry 79.) -/
def Obligations.ControlChanges : Prop :=
  (∀ (s : State) (c : Instr) (ini : Initiator) (off v : Nat) (op : ChangeOp),
    changeOf s c = some (ini, off, v, op) → accepted s ini off v = true →
    (s.role.state ≠ .partner → Does c s (fun d => d.mem = s.dev.mem ∧ d.commit.applied = s.dev.commit.applied ∧
      (∀ x ∈ s.dev.commit.held, x ∈ d.commit.held) ∧
      ∃ n, s.dev.commit.count < n ∧ n ≤ d.commit.count ∧ ⟨n, op, none⟩ ∈ d.commit.held)) ∧
    (s.role.state = .partner → (fromCore ini = false ∨ oneModule op = true) →
      Does c s (fun d => d.mem = s.dev.mem ∧ d.commit.held = s.dev.commit.held ∧ (op, none) ∈ d.commit.forwarded)) ∧
    (s.role.state = .partner → fromCore ini = true → oneModule op = false →
      Does c s (fun d => d.mem = s.dev.mem ∧ d.commit = s.dev.commit))) ∧
  (∀ (s : State) (n : Nat) (op : ChangeOp), awake s.dev = true → s.role.state = .alone → s.dev.twin.dying = false →
    s.dev.commit.held = [⟨n, op, none⟩] →
    let d := s.dev
    let b := (tickBegin (s.role, d)).2
    let x := commitPoint .alone d.clk.frame (tickBegin (s.role, d))
    let c := x.2
    let y := tickEnd d.ptp.steps x
    let others (l : List Fld) : Prop := ∀ a, (∀ f ∈ l, a ≠ f.off) → rdw c a = rdw d a
    exec .frameTick s = .next { s with role := y.1, dev := y.2 } ∧
    b.regs = d.regs ∧ b.mem = d.mem ∧ b.clk = ⟨d.clk.frame + 1, 0, 0⟩ ∧
    c.clk = b.clk ∧ c.commit.held = [] ∧ c.commit.applied = max d.commit.applied n ∧
    (∀ i, op = .inval i → c.regs = d.regs ∧ c.mem = d.mem ∧ ∀ k, cacheGet c k =
      if k = i.toNat then (cacheGet d k).map (fun e => { e with pend := true, tried := false }) else cacheGet d k) ∧
    (op = .invalAll → c.regs = d.regs ∧ c.mem = d.mem ∧ ∀ k, cacheGet c k =
      (cacheGet d k).map (fun e => { e with pend := true, tried := false })) ∧
    (∀ (h : Hue) (i : BitVec 9) (data : List W32), op = .staging h i data →
      let cur := entryRaw d i.toNat
      let at_ := entryAt d i.toNat
      let gen := (entGenHead cur + 1) % 2 ^ 16
      let new := ofLe (data.flatMap (fun w => leBytes 4 w.toNat))
      let reason := if h.val ≠ 0 ∧ (entEditHue cur ≠ h.val ∨ entEditHue new ≠ h.val) then 2
        else if entType new ≠ 0 ∧ entryValid d i.toNat new = false then 3 else 0
      flag c (slotBusy h) = false ∧ rd c (slotReason h) = reason ∧ flag c (slotRefused h) = decide (reason ≠ 0) ∧
      flag c (slotDone h) = decide (reason = 0) ∧
      (reason ≠ 0 → c.mem = d.mem ∧ c.cht = d.cht ∧ bit (rd c (hdrEvtFlag .cht)) 4 = true) ∧
      (reason = 0 → rd64 c (slotFrameLo h) (slotFrameHi h) = d.clk.frame.toNat ∧
        (∀ e, cacheGet d i.toNat = some e → cacheGet c i.toNat = some { e with pend := true, tried := false }) ∧
        ((guardOf b at_ 128 = none ∨ guardOf b at_ 128 = some .cht) → ∀ j, j < 128 → rdB c (at_ + j) =
          if j = 2 ∨ j = 0x78 then BitVec.ofNat 8 gen else if j = 3 ∨ j = 0x79 then BitVec.ofNat 8 (gen / 256)
          else if (0x20 ≤ j ∧ j < 0x28) ∨ (0x38 ≤ j ∧ j < 0x40) then rdB d (at_ + j) else BitVec.ofNat 8 (new / 256 ^ j)))) ∧
    (∀ (slot both : Bool) (f : Word) (bank : List (W32 × Word)), op = .arm slot both f bank → bank.length = 12 →
      let here := both = true ∨ slot = slotB d
      let free := d.cht.armed = none
      let next := (∀ q, q < 12 → rd c (chtNextProg q) = (nth bank q (0, 0)).1.toNat ∧
        rd64 c (chtNextMaskLo q) (chtNextMaskHi q) = (nth bank q (0, 0)).2.toNat) ∧
        rd64 c chtSwitchFrameLo chtSwitchFrameHi = f.toNat
      let refused (code : Nat) : Prop := Captured .cht code d c ∧ c.cht.armed = none ∧ next
      let away (q : Nat) : Prop := (nth bank q (0, 0)).2 ≠ 0 ∧ (pstate d q = 5 ∨ pstate d q = 0)
      (¬here → c.regs = d.regs ∧ c.cht = d.cht) ∧
      (here → ¬free → Captured .cht 0x105 d c ∧ c.cht.armed = d.cht.armed ∧ rd c (chtNextProg 0) = rd d (chtNextProg 0)) ∧
      (here → free →
        (f.toNat ≤ d.clk.frame.toNat + 1 → refused 0x101) ∧
        (d.clk.frame.toNat + 1 < f.toNat → conflictSkein bank ≠ none → refused 0x102) ∧
        (d.clk.frame.toNat + 1 < f.toNat → conflictSkein bank = none → orphanSkein d bank ≠ none → refused 0x103) ∧
        (d.clk.frame.toNat + 1 < f.toNat → conflictSkein bank = none → orphanSkein d bank = none →
          ((∃ q, q < 12 ∧ away q) → refused 0x104) ∧
          ((∀ q, q < 12 → ¬away q) → c.cht.armed = some (f, bank) ∧ flag c chtArmed = true ∧ flag c chtPostponed = false ∧
            next)))) ∧
    (∀ slot both : Bool, op = .cancel slot both →
      let here := both = true ∨ slot = slotB d
      ((¬here ∨ d.cht.armed = none) → c.regs = d.regs ∧ c.cht = d.cht) ∧
      (∀ f bank, here → d.cht.armed = some (f, bank) →
        (d.clk.frame.toNat + 1 < f.toNat → c.cht.armed = none ∧ flag c chtArmed = false) ∧
        (f.toNat ≤ d.clk.frame.toNat + 1 → c.cht = d.cht ∧
          rd c chtLateCancelCount = min (rd d chtLateCancelCount + 1) (2 ^ 32 - 1)))) ∧
    (∀ (h : Hue) (q : BitVec 15) (data : List W32), op = .ctxWrite h q data →
      let w (i : Nat) : Nat := (nth data (2 * i) 0).toNat + (nth data (2 * i + 1) 0).toNat * 2 ^ 32
      let new := ctxOf (w 0) (w 1) (w 2) (w 3)
      let r := ctxReason d h q.toNat new
      flag c (hueCtxStatusBusy h) = false ∧ rd c (hueCtxStatusReason h) = r ∧ flag c (hueCtxStatusDone h) = decide (r = 0) ∧
      flag c (hueCtxStatusRefused h) = decide (r ≠ 0) ∧ (r ≠ 0 → c.mem = d.mem) ∧
      (r = 0 → rdCtx c q.toNat = { new with full := (rdCtx d q.toNat).full, rsv := false } ∧
        ∀ a, (a < ctxBase d + 32 * q.toNat ∨ ctxBase d + 32 * q.toNat + 32 ≤ a) → rdB c a = rdB d a)) ∧
    (∀ (h : Hue) (port : Byte) (q : BitVec 15) (words : List W32) (m : Nat), op = .dbEnq h port q words → words.length = 16 →
      m ≤ 64 → let k := rdCtx d q.toNat
      let own := h.val = 0 ∨ h.val = k.owner
      (flag d (hueResetting h) = true → rd c (hueDbLastCode h) = 3 ∧ c.mem = d.mem) ∧
      (flag d (hueResetting h) = false → ringSound d q.toNat m = true →
        (own → occ k < ringSize k → ringFails d (entryAddr k k.tail) m true = false → rd c (hueDbLastCode h) = 0 ∧
          rd c (hueDbLastPort h) = port.toNat ∧ Enqueued d c q.toNat ((words.flatMap (fun w => leBytes 4 w.toNat)).take m)) ∧
        (own → occ k = ringSize k → rd c (hueDbLastCode h) = 1 ∧
          rd c (hueDbRefusedCount h) = min (rd d (hueDbRefusedCount h) + 1) (2 ^ 32 - 1)) ∧
        (¬own → rd c (hueDbLastCode h) = 4 ∧ c.mem = d.mem))) ∧
    (∀ (h : Hue) (port : Byte) (q : BitVec 15) (k m : Nat), op = .dbConsume h port q k →
      let r := rdCtx d q.toNat
      let own := h.val = 0 ∨ h.val = r.owner
      (flag d (hueResetting h) = true → rd c (hueDbLastCode h) = 3 ∧ c.mem = d.mem) ∧
      (flag d (hueResetting h) = false → ringSound d q.toNat m = true →
        (own → rd c (hueDbLastCode h) = 0 ∧
          rdCtx c q.toNat = { r with head := (r.head + min k (occ r)) % (2 * ringSize r), rsv := false }) ∧
        (¬own → rd c (hueDbLastCode h) = 4 ∧ c.mem = d.mem))) ∧
    (∀ h : Hue, op = .hueReset h → flag c (hueResetting h) = true ∧ rd c (hueFaultCode h) = 0 ∧ rd c (hueFaultCount h) = 0 ∧
      ∀ (g : Hue) (p : Byte) (i : Nat), i < 17 → stagedGet c g p.toNat i = if g = h then 0 else stagedGet d g p.toNat i) ∧
    (∀ (i : Fin 128) (en : Bool), op = .streamEn true i en → i.val < 96 →
      let busy (net : Nat) : Prop := txLeg d i net = true ∧ 10368 < wireBytes d net + txWire d i
      (en = false → flag c (txEn i) = false ∧ others [txEn i]) ∧
      (en = true → flag d (txEn i) = true → c.regs = d.regs) ∧
      (en = true → flag d (txEn i) = false →
        (txBad d i = true → Captured (.strm 0) 0x100 d c ∧ flag c (txEn i) = false) ∧
        (txBad d i = false → (busy 0 ∨ busy 1) → Captured (.strm 0) 0x101 d c ∧ flag c (txEn i) = false) ∧
        (txBad d i = false → ¬busy 0 → ¬busy 1 → flag c (txEn i) = true ∧ others [txEn i]))) ∧
    (∀ (i : Fin 128) (en : Bool), op = .streamEn false i en →
      (en = false → flag c (rxEn i) = false ∧ (flag d (rxEn i) = true → ∀ f ∈ c.strm.filed, f.1 / 4 % 128 ≠ i.val)) ∧
      (en = true → flag d (rxEn i) = true → c.regs = d.regs) ∧
      (en = true → flag d (rxEn i) = false →
        (rxBad d i = true → Captured (.strm 0) 0x100 d c ∧ flag c (rxEn i) = false) ∧
        (rxBad d i = false → flag c (rxEn i) = true))) ∧
    (∀ (net : Fin 2) (w : W32), op = .mtu net w → rd c (strmMtu net) = bits w.toNat 29 16 ∧ others [strmMtu net]) ∧
    (∀ (a : Nat) (w : W32), op = .chime a w → rdw c a = w ∧ ∀ k, k ≠ a → rdw c k = rdw d k) ∧
    (∀ o, op = .ptpStep o → c.ptp.steps = [o] ∧ c.regs = d.regs ∧ c.mem = d.mem) ∧
    (op = .nightStart →
      let f := rd64 d supNightFrameLo supNightFrameHi
      (f % 2 ^ 64 ≤ d.clk.frame.toNat + 1 → Captured .sup 0x100 d c ∧ c.sup = d.sup) ∧
      (d.clk.frame.toNat + 1 < f % 2 ^ 64 → d.sup.night ≠ none → Captured .sup 0x101 d c ∧ c.sup = d.sup) ∧
      (d.clk.frame.toNat + 1 < f % 2 ^ 64 → d.sup.night = none → flag c supNightArmed = true ∧
        c.sup.night = some ⟨BitVec.ofNat 64 f, nightLen d (rd d supNightLen), rd d supNightGroups, none, [], 0, 0⟩)) ∧
    (op = .nightAbort → c.sup.night = none ∧ (d.sup.night ≠ none → flag c supNightArmed = false ∧
      flag c supNightActive = false)) ∧
    (∀ mask : List W32, op = .adopt mask →
      let lines := (List.range 192).filter (fun k => bit (nth mask (k / 32) 0).toNat (k % 32))
      let has (k : Nat) : Bool := (supLine d k).candBands.isSome || (candNightOf (supLine d k)).isSome
      flag c supDone = true ∧ flag c supBusy = false ∧ rd c supAdopted = (lines.filter has).length ∧
      flag c supRefused = lines.any (fun k => !has k) ∧ rd c supReason = b2n (lines.any (fun k => !has k))) ∧
    (∀ (l : Byte) (data : List W32), op = .load l data →
      let bad := badBaseline (ofLe (data.flatMap (fun w => leBytes 4 w.toNat)))
      flag c supDone = true ∧ flag c supBusy = false ∧ flag c supRefused = bad ∧ rd c supReason = (if bad then 2 else 0) ∧
      (bad = true → c.mem = d.mem)) ∧
    (op = .modelCommit →
      let l := (List.range (modelCount d)).map (fun i => rdN d (rd d wearModelBase * 256 + 32 * i) 32)
      flag c wearModelCommit = false ∧ c.mem = d.mem ∧ (l.any badModel = true → Captured .wear 0x100 d c ∧ c.wear = d.wear) ∧
      (l.any badModel = false → c.wear = { d.wear with next := (d.clk.frame + 1, l) :: d.wear.next })) ∧
    (∀ (l : Byte) (i : BitVec 6) (data : List W32), op = .wearRecord l i data →
      let k := if 192 ≤ l.toNat then 0 else l.toNat
      let r := ofLe (data.flatMap (fun w => leBytes 4 w.toNat))
      let why := if lineBusy d k then 1 else if wearPtr b k = 0 then 2 else if bits (r / 2 ^ 64) 23 22 ≠ 0 then 3 else 0
      rd c wearReason = why ∧ flag c wearRefused = decide (why ≠ 0) ∧ flag c wearDone = decide (why = 0) ∧
      flag c wearBusy = false ∧ (why ≠ 0 → c.mem = d.mem ∧ c.wear = d.wear) ∧
      (why = 0 → tget (fun _ => none) c.wear.recs (64 * k + i.toNat) =
        some (ofLe (wearRecBytes { wearRecOf r with loaded := true, present := true })))) ∧
    (∀ mask : List W32, op = .passStart mask →
      let lines := (List.range 192).filter (fun k =>
        bit (nth mask (k / 32) 0).toNat (k % 32) && lineUp b k && entTagEn (entryNow b k))
      (flag d (hdrActive .tag) = false → c.regs = d.regs ∧ c.tag = d.tag) ∧
      (flag d (hdrActive .tag) = true → flag d tagPassActive = true → Captured .tag 0x102 d c ∧ c.tag = d.tag) ∧
      (flag d (hdrActive .tag) = true → flag d tagPassActive = false → c.tag.queue = lines ∧
        (lines ≠ [] → flag c tagPassActive = true) ∧ ∀ k ∈ lines, rd c (tagLstate k) = 1)) ∧
    (op = .passAbort → c.tag.queue = [] ∧ flag c tagPassActive = false ∧ (∀ i, i < 24 → tagLane c i = none) ∧
      ∀ k ∈ d.tag.queue, k < 192 → rd c (tagLstate k) = 0) ∧
    (∀ h : Hue, op = .seqFloor h → c.regs = d.regs ∧ tget (fun _ => false) c.gw.flooring h = false ∧
      tget (fun _ => none) c.gw.cached h = none ∧
      lastSeq c h = BitVec.ofNat 64 (max (lastSeq d h).toNat (d.clk.frame.toNat * 125000 % 2 ^ 64))))

/-! ### Spindle DMA -/

/-- R224, R226, R230 to R236, R375. What a write of a channel's CH_CTRL does: EN set with no set armed only enables, or
waits for the quiesce; EN cleared drops the channel, which quiesces while requests are out; ARM loads the shadow set
of an enabled channel that has no set active, and otherwise waits; DISARM takes it back; SWTRIG, like a pulse on the
line selected, is latched, and lost if the latch is set; the lines that never pulse latch nothing. A frame timer
pulses once in each of its frames or samples, at the cycle of OFFSET, and at no other time. A write that reaches the
window of a frozen pair is discarded, and so is the response of a read of a dropped run. A write that has had no
response stops its channel with RESP_TIMEOUT and EN at 1, once nothing else of it is outstanding (a write is taken before a read, the
model's choice of log entry 36), and a response that
comes late, or that no request waits for, is only counted, and one to a request that a SOFT_RST dropped is discarded. A list out
of the channel's reach stops it with BAD_ADDRESS before it is read, which log entry 120 deduces from R213. RESTART_HI starts the new run of a stopped channel at the
list written, with its counts as they stand. A channel's quiesce ends with the answer of its last request, not before,
and a channel that was to be enabled then is. -/
def Obligations.SpindleControls : Prop :=
  (∀ (s : State) (ini : Initiator) (c : Chan), s.dev.sp.pulses = [] →
    let d := s.dev
    let n := c.val
    let write (v : Nat) : Bool := accepted s ini (spCh n) v
    (write 1 = true → flag d (chChCtrlEn n) = false → flag d (chChStatusQuiescing n) = false →
      flag d (chChStatusArmed n) = false → flag d (chChStatusActive n) = false →
      Does (.chEnSet ini c) s (fun t => t = wr d (chChCtrlEn n) 1)) ∧
    (write 1 = true → flag d (chChStatusQuiescing n) = true →
      Does (.chEnSet ini c) s (fun t => t = wr d (chChStatusPendEn n) 1)) ∧
    (write 0 = true → flag d (chChCtrlEn n) = true →
      Does (.chEnClear ini c) s (fun t => flag t (chChCtrlEn n) = false ∧ flag t (chChStatusActive n) = false ∧
        flag t (chChStatusLatched n) = false ∧ flag t (chChStatusStopped n) = false ∧ flag t (chChStatusPendEn n) = false ∧
        rd t (chChStatusArmed n) = rd d (chChStatusArmed n) ∧ (spGet t n).elems = [] ∧
        (((spGet d n).reads ≠ [] ∨ (spGet d n).writes ≠ []) → flag t (chChStatusQuiescing n) = true) ∧
        (∀ x, x ≠ n → spGet t x = spGet d x))) ∧
    (write 2 = true → flag d (chChCtrlEn n) = false → flag d (chChStatusPendEn n) = false →
      Does (.chArm ini c) s (fun t => flag t (chChStatusArmed n) = true ∧ flag t (chChCtrlEn n) = false ∧
        t.mem = d.mem ∧ t.sp = d.sp ∧ ∀ x, x ≠ (chChStatusArmed n).off → rdw t x = rdw d x)) ∧
    (write 3 = true → flag d (chChCtrlEn n) = true → flag d (chChStatusQuiescing n) = false →
      flag d (chChStatusActive n) = false → rd d (chShCfgSg n) ≠ 0 → rd d (chShCfgTmode n) ≠ 3 →
      spReads (rd d (chShListLo n) * 16 + rd d (chShListHi n) * 2 ^ 32) 16 = false → (spGet d n).reads = [] → (spGet d n).writes = [] →
      flag d (hdrHalt .spindle) = false → Does (.chArm ini c) s (fun t => flag t (chChStatusStopped n) = true ∧
        rd t (chChStatusCode n) = 4 ∧ Captured .spindle 0x0104 d t ∧ rd t modUnmappedCount = rd d modUnmappedCount)) ∧
    (write 3 = true → flag d (chChCtrlEn n) = true → flag d (chChStatusQuiescing n) = false →
      flag d (chChStatusActive n) = false → rd d (chShCfgSg n) ≠ 0 → rd d (chShCfgTmode n) ≠ 3 →
      spReads (rd d (chShListLo n) * 16 + rd d (chShListHi n) * 2 ^ 32) 16 = true →
      Does (.chArm ini c) s (fun t => flag t (chChStatusActive n) = true ∧ flag t (chChStatusArmed n) = false ∧
        flag t (chChStatusStopped n) = false ∧ flag t (chChStatusWaitTrig n) = (rd d (chShCfgTmode n) != 0) ∧
        rd t (chSwapCount n) = min (rd d (chSwapCount n) + 1) (2 ^ 32 - 1) ∧ rd t (chElemIndex n) = 0 ∧
        rd64 t (chBytesDoneLo n) (chBytesDoneHi n) = 0 ∧
        rd64 t (chActSrcLo n) (chActSrcHi n) = rd64 d (chShSrcLo n) (chShSrcHi n) ∧
        rd64 t (chActDstLo n) (chActDstHi n) = rd64 d (chShDstLo n) (chShDstHi n) ∧
        rd t (chActLen n) = rd d (chShLen n) ∧ rdw t (chActCfg n).off = rdw d (chShCfgSg n).off ∧
        (spGet t n).listPtr = rd d (chShListLo n) * 16 + rd d (chShListHi n) * 2 ^ 32 ∧ t.mem = d.mem)) ∧
    (write 5 = true → flag d (chChCtrlEn n) = true → flag d (chChStatusQuiescing n) = false →
      Does (.chDisarm ini c) s (fun t => t = wr d (chChStatusArmed n) 0)) ∧
    (write 9 = true → flag d (chChCtrlEn n) = true → flag d (chChStatusQuiescing n) = false →
      flag d (chChStatusActive n) = false →
      Does (.chSwtrig ini c) s (fun t =>
        t = if flag d (chChStatusLatched n) then raise .spindle 1 (inc d spTrigLostCount)
            else wr d (chChStatusLatched n) 1)) ∧
    (∀ line : Byte, awake d = true → (147 ≤ line.toNat ∧ line.toNat ≤ 159 ∨ 224 ≤ line.toNat) →
      Does (.spindleTrigger line) s (fun t => t = d)) ∧
    (∀ line : Byte, awake d = true → (line.toNat < 147 ∨ 160 ≤ line.toNat ∧ line.toNat < 224) → (∀ x, x < 128 → x ≠ n → flag d (chChCtrlEn x) = false) →
      flag d (chChCtrlEn n) = true → actTrig d n = line.toNat → flag d (chChStatusActive n) = false →
      flag d (chChStatusLatched n) = false →
      Does (.spindleTrigger line) s (fun t => t = wr d (chChStatusLatched n) 1)) ∧
    (∀ timer : Fin 16, awake d = true → Does (.frameTimerPulse timer) s (fun t =>
      if timerDue d timer.val then t.evc.pulses = d.evc.pulses ++ [480 + timer.val] ∧ t.clk.frame = d.clk.frame ∧
        t.clk.cycle = timerCycle d timer.val ∧ timerDue t timer.val = false else t = d))) ∧
  (∀ (s : State) (ini : Initiator) (c : Chan), awake s.dev = true → s.dev.sp.pulses = [] →
    let d := s.dev
    let n := c.val
    let x := spGet d n
    (∀ w ws, x.writes = w :: ws → w.live = true → flag d (hdrHalt .spindle) = false →
      (ws = [] → x.reads = [] → Does (.respTimeout c) s (fun t => flag t (chChStatusStopped n) = true ∧
        rd t (chChStatusCode n) = 1 ∧ rd t (chChCtrlEn n) = rd d (chChCtrlEn n) ∧ Captured .spindle 0x0101 d t ∧
        (spGet t n).elems = [] ∧ (spGet t n).lateWrites = x.lateWrites + 1 ∧ bit (rd t (chChEvt n)) 3 = true)) ∧
      ((ws ≠ [] ∨ x.reads ≠ []) → Does (.respTimeout c) s (fun t => t.regs = d.regs ∧
        (spGet t n).stop = some (x.stop.getD 0x0101) ∧ (spGet t n).lateWrites = x.lateWrites + 1 ∧
        (spGet t n).writes.length = ws.length ∧ (∀ r ∈ (spGet t n).reads ++ (spGet t n).writes, r.live = false)))) ∧
    (∀ w ws, x.writes = w :: ws → w.live = false → guardOf d w.addr w.len = none → windowDrops d w.addr = true →
      x.stop = none →
      Does (.spindleWriteResponse c ⟨false, .none⟩) s (fun t => t.mem = d.mem ∧ t.regs = d.regs ∧ (spGet t n).writes = ws)) ∧
    (∀ r rs, x.reads = r :: rs → r.live = false → r.list = false → x.stop = none → windowUpsets d r.addr r.len = [] →
      Does (.spindleReadResponse c ⟨false, .none⟩) s (fun t =>
        t.mem = d.mem ∧ t.regs = d.regs ∧ (spGet t n).elems = x.elems ∧ (spGet t n).reads = rs)) ∧
    (x.writes = [] → x.reads = [] → Does (.respTimeout c) s (fun t => t = d)) ∧
    (∀ late, x.writes = [] → x.goneWrites = 0 → (late = false ∨ x.lateWrites = 0) →
      Does (.spindleWriteResponse c ⟨late, .none⟩) s (fun t => t = inc d spLateRespCount)) ∧
    (∀ late, x.reads = [] → x.goneReads = 0 → (late = false ∨ x.lateReads = 0) →
      Does (.spindleReadResponse c ⟨late, .none⟩) s (fun t => t = inc d spLateRespCount)) ∧
    (∀ late err, x.goneReads ≠ 0 → (late = true ∨ x.reads = []) → Does (.spindleReadResponse c ⟨late, err⟩) s (fun t =>
      t.mem = d.mem ∧ t.regs = d.regs ∧ spGet t n = { x with goneReads := x.goneReads - 1 })) ∧
    (∀ late err, x.goneWrites ≠ 0 → (late = true ∨ x.writes = []) → Does (.spindleWriteResponse c ⟨late, err⟩) s (fun t =>
      t.mem = d.mem ∧ t.regs = d.regs ∧ spGet t n = { x with goneWrites := x.goneWrites - 1 })) ∧
    (∀ err, x.goneReads = 0 → x.lateReads ≠ 0 → Does (.spindleReadResponse c ⟨true, err⟩) s (fun t => t.mem = d.mem ∧
      rd t spLateRespCount = min (rd d spLateRespCount + 1) 0xFFFFFFFF ∧
      spGet t n = { x with lateReads := x.lateReads - 1 })) ∧
    (∀ err, x.goneWrites = 0 → x.lateWrites ≠ 0 → Does (.spindleWriteResponse c ⟨true, err⟩) s (fun t => t.mem = d.mem ∧
      rd t spLateRespCount = min (rd d spLateRespCount + 1) 0xFFFFFFFF ∧
      spGet t n = { x with lateWrites := x.lateWrites - 1 })) ∧
    (∀ v : W32, accepted s ini (spCh n + 0x24) v.toNat = true → actTmode d n ≠ 3 →
      spReads (x.restart + v.toNat % 256 * 2 ^ 32) 16 = true →
      Does (.restartHi ini c v) s (fun t => flag t (chChStatusStopped n) = false ∧ flag t (chChStatusActive n) = true ∧
        (spGet t n).listPtr = x.restart + v.toNat % 256 * 2 ^ 32 ∧ rd t (chElemIndex n) = rd d (chElemIndex n) ∧
        rd t (chSwapCount n) = rd d (chSwapCount n) ∧ t.mem = d.mem)) ∧
    (flag d (chChStatusQuiescing n) = true → flag d (chChStatusPendEn n) = false → x.reads.length + x.writes.length ≤ 1 →
      Does (.spindleChQuiesceEnd c) s (fun t => flag t (chChStatusQuiescing n) = false ∧ (spGet t n).reads = [] ∧
        (spGet t n).writes = [] ∧ rd t (chChCtrlEn n) = rd d (chChCtrlEn n))) ∧
    (flag d (chChStatusQuiescing n) = true → flag d (chChStatusPendEn n) = true → flag d (chChStatusArmed n) = false →
      x.reads.length + x.writes.length ≤ 1 →
      flag d (chChStatusActive n) = false →
      Does (.spindleChQuiesceEnd c) s (fun t => flag t (chChStatusQuiescing n) = false ∧
        flag t (chChStatusPendEn n) = false ∧ flag t (chChCtrlEn n) = true)) ∧
    ((flag d (chChStatusQuiescing n) = false ∨ 2 ≤ x.reads.length + x.writes.length) →
      Does (.spindleChQuiesceEnd c) s (fun t => t = d)))

/-- R214, R215, R222, R223, R227. One channel's transfer: a read request, under the channel's hue, takes what is left of the
element up to the next 128-byte boundary, as far as the staging buffer has room; its response brings the bytes; a write request takes held bytes up to such a boundary; its acknowledgement
finds them in memory, and the last one completes the element and, if it was the last, the transfer. -/
def Obligations.SpindleTransfer : Prop :=
  ∀ (s : State) (c : Chan) (e : SpElem) (rest : List SpElem), awake s.dev = true → s.dev.sp.pulses = [] →
    let d := s.dev
    let n := c.val
    let x := spGet d n
    x.elems = e :: rest → e.bad = none → 0 < e.len → x.free = true → x.stop = none →
    ((∀ y, y < 128 → y ≠ n → flag d (chChCtrlEn y) = false) → flag d (chChCtrlEn n) = true →
      flag d (chChStatusActive n) = true → flag d (chChStatusStopped n) = false →
      (e.read < e.len → 0 < spRoom d n → inFlight d SpChan.reads < 64 →
        Does .spindleReadIssue s (fun t => t.regs = d.regs ∧ t.mem = d.mem ∧ (∀ y, y ≠ n → spGet t y = spGet d y) ∧
          ∃ k, k = min (min (e.len - e.read) (128 - (e.src + e.read) % 128)) (spRoom d n) ∧
            (spGet t n).reads = x.reads ++ [⟨false, x.done, e.src + e.read, k, [], rd d (chChHue n), true⟩] ∧
            (spGet t n).elems = { e with read := e.read + k } :: rest)) ∧
      (e.held ≠ [] → inFlight d SpChan.writes < 64 →
        Does .spindleWriteIssue s (fun t => t.regs = d.regs ∧ t.mem = d.mem ∧ (∀ y, y ≠ n → spGet t y = spGet d y) ∧
          ∃ k, k = min e.held.length (128 - e.heldAt % 128) ∧
            (spGet t n).writes = x.writes ++ [⟨false, x.done, e.heldAt, k, e.held.take k, rd d (chChHue n), true⟩] ∧
            (spGet t n).elems = { e with held := e.held.drop k, heldAt := e.heldAt + k } :: rest))) ∧
    (∀ r rs, x.reads = r :: rs → r.live = true → r.list = false → r.elem = x.done → windowResets d r.addr = false →
      fenced d r.addr r.len = false → pliesDiffer d r.addr r.len = false → windowUpsets d r.addr r.len = [] →
      Does (.spindleReadResponse c ⟨false, .none⟩) s (fun t => t.regs = d.regs ∧ t.mem = d.mem ∧ (spGet t n).reads = rs ∧
        (spGet t n).elems = { e with held := e.held ++ rdBytes d r.addr r.len } :: rest)) ∧
    (∀ w ws, x.writes = w :: ws → w.live = true → guardOf d w.addr w.len = none → windowDrops d w.addr = false →
      fenced d w.addr w.len = false →
      (e.acked + w.len ≠ e.len → Does (.spindleWriteResponse c ⟨false, .none⟩) s (fun t => t.regs = d.regs ∧
        (spGet t n).writes = ws ∧ (spGet t n).elems = { e with acked := e.acked + w.len } :: rest ∧
        (∀ i, i < w.data.length → rdB t (w.addr + i) = nth w.data i 0) ∧
        (∀ a, a < w.addr ∨ w.addr + w.data.length ≤ a → rdB t a = rdB d a))) ∧
      (e.acked + w.len = e.len → rest = [] → x.listDone = true → e.evt = false → flag d (chChStatusArmed n) = false →
        bits (rd d (chActCfg n)) 16 14 = 0 → Does (.spindleWriteResponse c ⟨false, .none⟩) s (fun t =>
          rd t (chElemIndex n) = (x.done + 1) % 2 ^ 24 ∧ flag t (chChStatusActive n) = false ∧ (spGet t n).elems = [] ∧
          rd64 t (chBytesDoneLo n) (chBytesDoneHi n) = (rd64 d (chBytesDoneLo n) (chBytesDoneHi n) + e.len) % 2 ^ 40 ∧
          bit (rd t (chChEvt n)) 1 = true ∧
          (∀ i, i < w.data.length → rdB t (w.addr + i) = nth w.data i 0) ∧
          (∀ a, a < w.addr ∨ w.addr + w.data.length ≤ a → rdB t a = rdB d a))))

/-! ### Bobbins, the sequencer and the log -/

/-- R243, R244, R246, R247. A bobbin operation of a core that lands: ENQ appends the entry, DEQ removes the first and PEEK
shows it in BD, OCC only reports; the status word holds the code and the occupancy after it. FULL, EMPTY, a bobbin of
another hue, a manager that took no operations at the trigger and a memory error change no ring; after NOT_OWNER the status word
shows the occupancy 0, as log entry 38 deduces from R247. CTX_READ fills CTX_DATA with the context selected. -/
def Obligations.BobbinOperations : Prop :=
  ∀ (s : State) (p : Pair) (dst pc q n : Nat) (k : BobKind) (entry : List Byte) (run : Bool), awake s.dev = true →
    let d := s.dev
    let c := rdCtx d q
    let hue := rd d (plyCoreHue p)
    let own := hue = 0 ∨ hue = c.owner
    let status (code o : Nat) : Word := BitVec.ofNat 64 (code + o * 2 ^ 32)
    let word (j : Nat) : Word := BitVec.ofNat 64 (rdN d (entryAddr c c.head + 8 * j) 8)
    (Machine.core d p).ext = [⟨dst, pc, .bobbin k q entry run⟩] → ringSound d q n = true → n ≤ 64 →
    let fails (x : Nat) (write : Bool) : Bool := ringFails d (entryAddr c x) n write
    (own → k = .enq → isCmdRing d q = false → entry.length = n → run = true →
      (occ c < ringSize c → fails c.tail true = false → Does (.bobbinOpLand p .none) s (fun t =>
        Enqueued d t q entry ∧ ExtLanded t p dst (status 0 (occ c + 1)))) ∧
      (occ c < ringSize c → ∀ err, (err ≠ .none ∨ fails c.tail true = true) → Does (.bobbinOpLand p err) s (fun t =>
        t.mem = d.mem ∧ Captured .bobbin 0x0100 d t ∧ ExtLanded t p dst (status 5 (occ c)))) ∧
      (occ c = ringSize c → Does (.bobbinOpLand p .none) s (fun t => ExtLanded t p dst (status 1 (occ c)) ∧
        rdCtx t q = { c with full := min (c.full + 1) (2 ^ 32 - 1), rsv := false } ∧
        rd t bobFullCount = min (rd d bobFullCount + 1) (2 ^ 32 - 1)))) ∧
    (own → k = .deq ∨ k = .peek → 0 < occ c → run = true → fails c.head false = false → Does (.bobbinOpLand p .none) s (fun t =>
      (∀ j, j < n / 8 → (Machine.core t p).port (0x440 + j) = word j) ∧
      (if k = .deq then rdCtx t q = { c with head := (c.head + 1) % (2 * ringSize c), rsv := false } else t.mem = d.mem) ∧
      ExtLanded t p dst (status 0 (if k = .deq then occ c - 1 else occ c)))) ∧
    (own → k = .deq ∨ k = .peek → 0 < occ c → run = true → fails c.head false = true → Does (.bobbinOpLand p .none) s (fun t =>
      t.mem = d.mem ∧ Captured .bobbin 0x0100 d t ∧ ExtLanded t p dst (status 5 (occ c)))) ∧
    (own → k = .deq ∨ k = .peek → occ c = 0 → run = true → Does (.bobbinOpLand p .none) s (fun t =>
      t.mem = d.mem ∧ ExtLanded t p dst (status 2 0))) ∧
    (own → k = .occ → run = true → Does (.bobbinOpLand p .none) s (fun t => t.mem = d.mem ∧ ExtLanded t p dst (status 0 (occ c)))) ∧
    (own → run = false → (k = .enq → isCmdRing d q = false) → Does (.bobbinOpLand p .none) s (fun t =>
      t.mem = d.mem ∧ ExtLanded t p dst (status 3 (occ c)))) ∧
    (¬own → Does (.bobbinOpLand p .none) s (fun t => t.mem = d.mem ∧ ExtLanded t p dst (status 4 0))) ∧
    (∀ (ini : Initiator) (h : Hue), accepted s ini (hueCtxCmdRead h.val).off 1 = true →
      Does (.ctxRead ini h) s (fun t => t.mem = d.mem ∧ ∀ j, j < 8 →
        rd t (hueCtxData h.val j) = rdN d (ctxBase d + 32 * rd d (hueCtxSel h.val) + 4 * j) 4))

/-- R257, R260, R261, R263, R264, R266, R267, R269, R270. The sequencer's commands: a START that passes its checks takes the lowest free slot
with what its words say and the handle of R260; one that does not, a reserved opcode, a command with reserved bits and a
CANCEL that finds nothing are counted and change no announcement; CANCEL and CANCEL_ALL release what is ACTIVE. A PENDING
announcement not ready in time is freed, and one that is ready by then is not. A player's reads make it ready (a read of one
copy that had to be made of the other counts and raises MIRROR_ERR), and it plays the samples of its item, once in a period and before cycle 108,032. A hue
reset is over once the hue has no announcement left. At a tick every zone takes the step of R266: its winner has the
highest priority and the earliest START; an empty zone goes to the winner, a holder that lost fades out over the length of
R267 and hands over where that is none, a fade goes on step by step, a winner that lost and won again rises from the gain
reached, and the route word says all this. A chime generator plays its pattern's notes, and no START takes a bound one
(the sine table and its roundings are free, log entry 45). That one read brings 8 frames is the model's choice (log entry 12), and so is
that CANCEL and CANCEL_ALL ignore the fields they do not use (log entry 40). -/
def Obligations.SequencerCommands : Prop :=
  ∀ (s : State) (h : Hue) (w : List Word), awake s.dev = true →
    let d := s.dev
    let refused (t : Dev) : Prop := t.seq.anns = d.seq.anns ∧
      rd t seqRefusedCount = min (rd d seqRefusedCount + 1) (2 ^ 32 - 1) ∧ rd t seqCmdCount = rd d seqCmdCount
    let taken (t : Dev) : Prop := rd t seqCmdCount = min (rd d seqCmdCount + 1) (2 ^ 32 - 1) ∧
      rd t seqRefusedCount = rd d seqRefusedCount
    (∀ a, startReason d h.val w = 0 → freeSlot d = some a → Does (.seqStart h w) s (fun t => taken t ∧
      ∃ x, annGet t a = some x ∧ x.st = 1 ∧ x.hue = h.val ∧ x.prio = bits (cmdWord w 1) 14 10 ∧ x.zones = cmdZones w ∧
        x.tag = BitVec.ofNat 32 (bits (cmdWord w 0) 63 32) ∧ x.order = d.seq.nextOrder ∧
        (bits (cmdWord w 1) 9 0 ≠ 0x3FD → x.source = bits (cmdWord w 1) 9 0) ∧
        x.handle = BitVec.ofNat 64 (a + h.val * 2 ^ 12 + (workFrame d).toNat % 2 ^ 48 * 2 ^ 16) ∧
        ∀ b, b ≠ a → annGet t b = annGet d b)) ∧
    (startReason d h.val w ≠ 0 → Does (.seqStart h w) s refused) ∧
    (Does (.seqReservedOpcode h w) s (fun t => refused t ∧
      (rd d (hueFaultCount h.val) = 0 → rd t (hueFaultCode h.val) = 0x25))) ∧
    (cmdRsv w = true → Does (.seqCancel h w) s refused ∧ Does (.seqCancelAll h w) s refused) ∧
    (cmdRsv w = false → bit (cmdWord w 1) 15 = false →
      (∀ a x, (annList d).find? (fun e => e.2.handle.toNat == cmdWord w 6 && (h.val == 0 || e.2.hue == h.val)) = some (a, x) →
        x.st = 2 → Does (.seqCancel h w) s (fun t => taken t ∧ annGet t a = some { x with st := 3, reason := 0 } ∧
          ∀ b, b ≠ a → annGet t b = annGet d b)) ∧
      ((∀ e ∈ annList d, e.2.handle.toNat ≠ cmdWord w 6 ∨ (h.val ≠ 0 ∧ e.2.hue ≠ h.val)) →
        Does (.seqCancel h w) s refused)) ∧
    (cmdRsv w = false → twf (fun _ => none) d.seq.anns = true → (∀ e ∈ annList d, e.2.hue = h.val → e.2.st ≠ 1) →
      Does (.seqCancelAll h w) s (fun t => taken t ∧ ∀ a x, annGet d a = some x →
        annGet t a = some (if x.hue = h.val ∧ x.st = 2 then { x with st := 3, reason := 0 } else x))) ∧
    (∀ (slot : Byte) x, annGet d slot.toNat = some x → x.st = 1 →
      (x.age ≤ readyTimeout d ∨ (playerGet d (x.source - 128)).ready = true) → Does (.readyTimeout slot) s (fun t => t = d)) ∧
    (∀ (slot : Byte) x, annGet d slot.toNat = some x → x.st = 1 → readyTimeout d < x.age →
      (playerGet d (x.source - 128)).ready = false → Does (.readyTimeout slot) s (fun t => annGet t slot.toNat = none ∧
        rd t seqRefusedCount = min (rd d seqRefusedCount + 1) (2 ^ 32 - 1) ∧ ∀ b, b ≠ slot.toNat → annGet t b = annGet d b)) ∧
    (∀ (pl : Fin 64) a ok1, (playerGet d pl.val).slot = some a →
      Does (.playerPrefetchRead pl true ok1) s (fun t => t.regs = d.regs ∧ t.mem = d.mem ∧ playerGet t pl.val =
        { playerGet d pl.val with buffered := (playerGet d pl.val).buffered + 1, ready := true })) ∧
    (∀ (pl : Fin 64) a, (playerGet d pl.val).slot = some a →
      Does (.playerPrefetchRead pl false true) s (fun t => (playerGet t pl.val).ready = true ∧
        bit (rd t (hdrEvtFlag .stor)) 1 = true ∧ rd t storMirrorErrCount = min (rd d storMirrorErrCount + 1) (2 ^ 32 - 1))) ∧
    (∀ (pl : Fin 64) a x, (playerGet d pl.val).slot = some a → annGet d a = some x → x.st = 2 →
      Does (.playerPrefetchRead pl false false) s (fun t => (playerGet t pl.val).dead = true ∧
        annGet t a = some { x with st := 3, reason := 1 } ∧
        rd t storReadErrCount = min (rd d storReadErrCount + 1) (2 ^ 32 - 1) ∧ Captured .seq 0x0100 d t)) ∧
    (∀ a x b, flag d (hdrActive .seq) = true → annList d = [(a, x)] → x.st = 2 → 128 ≤ x.source → x.source < 192 →
      tget (fun _ => none) d.stor.items x.item.toNat = some b → ofLe ((b.drop 4).take 4) ≠ 0 →
      let pl := playerGet d (x.source - 128)
      pl.finished = false → pl.dead = false → d.clk.cycle < 108032 → d.seq.advanced ≠ some d.clk.frame →
      Does .playerAdvance s (fun t => t.regs = d.regs ∧ t.mem = d.mem ∧ t.clk.cycle = max 8192 d.clk.cycle ∧
        t.seq.advanced = some d.clk.frame ∧ ∃ rest, tget (fun _ => []) t.seq.samples x.source = itemSample b pl.pos :: rest ∧ rest.length + 1 = nSamp d)) ∧
    ((108032 ≤ d.clk.cycle ∨ d.seq.advanced = some d.clk.frame) → Does .playerAdvance s (fun t => t = d)) ∧
    (flag d (hueResetting h.val) = true → (∀ e ∈ annList d, e.2.hue ≠ h.val) →
      Does (.hueResetDone h) s (fun t => flag t (hueResetting h.val) = false ∧ t.mem = d.mem)) ∧
    ((∃ e ∈ annList d, e.2.hue = h.val) → Does (.hueResetDone h) s (fun t => t = d)) ∧
    (s.role.state = .alone → d.twin.dying = false → d.twin.stopping = false → d.commit.held = [] → d.ptp.steps = [] →
      rd d bistPstatusPmode = 0 → d.cht.armed = none → flag d (hdrActive .seq) = true → flag d (hdrQuiescing .seq) = false →
      d.seq.stopped = false → (∀ k, k < 16 → flag d (hueCmdValid k) = false) → (∀ e ∈ annList d, e.2.st ≠ 1) →
      ∃ t, exec .frameTick s = .next t ∧ ∀ z, z < 192 →
        (zoneGet t.dev z, tget (fun _ => 0x3FF) t.dev.cht.routes z) = zoneStep (annList d) z (zoneGet d z)) ∧
    (∀ (l : List (Nat × Ann)) (z : Nat) (o : Zone), (l.map Prod.fst).Nodup →
      let stands (e : Nat × Ann) : Prop := e ∈ l ∧ e.2.st = 2 ∧ bit e.2.zones z = true
      let wins (e : Nat × Ann) : Prop := stands e ∧
        ∀ f, stands f → f.2.prio < e.2.prio ∨ (f.2.prio = e.2.prio ∧ (e.2.order < f.2.order ∨ f = e))
      let none_ : Prop := ∀ e, ¬stands e
      let gain (x : Zone) (j : Nat) : Nat := if x.f = 0 then x.gt else ((x.g0 : Int) + ((x.gt - x.g0 : Int) * j) / (x.f : Int)).toNat
      let word (e : Nat × Ann) (a b : Nat) : Word := BitVec.ofNat 64 (e.2.source + e.2.prio * 2 ^ 10 +
        (if 24 ≤ e.2.prio then 2 ^ 15 else 0) + e.2.handle.toNat % 2 ^ 16 * 2 ^ 16 + a * 2 ^ 32 + b * 2 ^ 48)
      let r := zoneStep l z o
      let step (x : Zone) (e : Nat × Ann) : Prop :=
        r.2 = word e (gain x x.j) (gain x (if x.j < x.f then x.j + 1 else x.j)) ∧
        r.1.holder = (if x.gt = 0 ∧ gain x (if x.j < x.f then x.j + 1 else x.j) = 0 then none else some e.1) ∧
        (r.1.g0, r.1.gt, r.1.f, r.1.j) = (x.g0, x.gt, x.f, if x.j < x.f then x.j + 1 else x.j)
      let rise (e : Nat × Ann) (from_ : Nat) : Zone := { o with holder := some e.1, g0 := from_, gt := 0x8000, f := 8 * e.2.fadeIn, j := 0 }
      (o.holder = none → none_ → r.2 = 0x3FF ∧ r.1.holder = none) ∧
      (∀ e, wins e →
        (o.holder = none → step (rise e 0) e) ∧
        (o.holder = some e.1 → o.gt = 0x8000 → step o e) ∧
        (o.holder = some e.1 → o.gt = 0 → step (rise e (gain o o.j)) e) ∧
        (∀ x, x ∈ l → x.1 ≠ e.1 → o.holder = some x.1 → o.gt = 0x8000 → x.2.st = 2 → step
          (if e.2.preempt = 0 then rise e 0 else { o with g0 := gain o o.j, gt := 0, f := 8 * e.2.preempt, j := 0 })
          (if e.2.preempt = 0 then e else x)) ∧
        (∀ x, x ∈ l → x.1 ≠ e.1 → o.holder = some x.1 → o.gt = 0 → 0 < o.f → step o x)) ∧
      (∀ x, x ∈ l → o.holder = some x.1 → o.gt = 0x8000 → x.2.st = 3 →
        let len := if x.2.reason = 0 then 8 * x.2.fadeOut else if x.2.reason = 1 then 0 else 160
        (len = 0 → (none_ → r.2 = 0x3FF ∧ r.1.holder = none) ∧ ∀ e, wins e → step (rise e 0) e) ∧
        (0 < len → step { o with g0 := gain o o.j, gt := 0, f := len, j := 0 } x))) ∧
    (∀ a x, flag d (hdrActive .seq) = true → annList d = [(a, x)] → x.st = 2 → 192 ≤ x.source → x.source < 208 →
      d.clk.cycle < 108032 → d.seq.advanced ≠ some d.clk.frame →
      let c := chimeGet d (x.source - 192)
      let perMs := if is48 d then 48 else 96
      let dur := rd d (seqNoteDurMs c.pattern c.note) * perMs
      let level := rd d (seqNoteLevel c.pattern c.note)
      (c.finished = false → c.note < 8 → c.pos < dur → level ≤ 0x8000 → Does .playerAdvance s (fun t =>
        ∃ rest, rest.length + 1 = nSamp d ∧ tget (fun _ => []) t.seq.samples x.source =
          chimeSample c.phase level (dur - c.pos) (rd d (seqNoteDecayMs c.pattern c.note) * perMs) :: rest)) ∧
      ((c.finished = true ∨ dur = 0) → Does .playerAdvance s (fun t =>
        tget (fun _ => []) t.seq.samples x.source = List.replicate (nSamp d) 0 ∧
        annGet t a = some { x with st := 3, reason := 1 }))) ∧
    (∀ c, c < 16 → bits (cmdWord w 1) 9 0 = 192 + c → (chimeGet d c).slot.isSome = true → startReason d h.val w ≠ 0)

/-- R273, R274, R276 to R278. An event below SEV_MIN that is not crimson is counted and dropped; another is queued while the
FIFO has room, its last 32 places kept for crimson, and is otherwise counted as lost. A record is written to the log's
ring with the next SEQNO; on FULL it is held and tried again. LOST records are written in the same way. -/
def Obligations.EventLog : Prop :=
  ∀ s : State, awake s.dev = true →
    let d := s.dev
    let n := d.log.fifo.length
    let q := rd d logBobbin
    let written (r : LogRec) (t : Dev) : Prop := Enqueued d t q (recBytes r (rd d logSeqno)) ∧
      rd t logSeqno = (rd d logSeqno + 1) % 2 ^ 32 ∧ t.log.retry = false
    (∀ e : LogEvent,
      let r : LogRec := ⟨ptpNs d, d.clk.frame, e.typ, BitVec.ofNat 4 e.hue.val, BitVec.ofNat 2 e.sev.val,
        e.payload % 2 ^ 256, e.arg⟩
      (e.sev.val < 2 → e.sev.val < sevMin d → Does (.logEvent e) s (fun t => t.log = d.log ∧
        rd t logFilteredCount = min (rd d logFilteredCount + 1) (2 ^ 32 - 1))) ∧
      ((e.sev.val = 2 ∨ sevMin d ≤ e.sev.val) → (n < 480 ∨ (e.sev.val = 2 ∧ n < 512)) →
        Does (.logEvent e) s (fun t => t.log.fifo = d.log.fifo ++ [r] ∧ t.mem = d.mem)) ∧
      ((e.sev.val = 2 ∨ sevMin d ≤ e.sev.val) → 480 ≤ n → (e.sev.val = 2 → 512 ≤ n) →
        Does (.logEvent e) s (fun t => t.log.fifo = d.log.fifo ∧ t.mem = d.mem ∧
          rd t logLostCount = min (rd d logLostCount + 1) (2 ^ 32 - 1)))) ∧
    (logRingOk d = true → ringSound d q 64 = true → flag d (hdrActive .log) = true →
      ringFails d (entryAddr (rdCtx d q) (rdCtx d q).tail) 64 true = false →
      (∀ r rest, d.log.fifo = r :: rest → d.log.series = [] → d.log.losses = [] → d.log.other = 0 →
        (occ (rdCtx d q) < ringSize (rdCtx d q) →
          (d.log.retry = false → Does (.logWrite .none) s (fun t => written r t ∧ t.log.fifo = rest)) ∧
          (d.log.retry = true → Does (.logRetry .none) s (fun t => written r t ∧ t.log.fifo = rest))) ∧
        (occ (rdCtx d q) = ringSize (rdCtx d q) → d.log.retry = false →
          Does (.logWrite .none) s (fun t => t.log.fifo = d.log.fifo ∧ t.log.retry = true ∧
            rd t logSeqno = rd d logSeqno))) ∧
      (∀ r rest, d.log.series = r :: rest → d.log.retry = false → occ (rdCtx d q) < ringSize (rdCtx d q) →
        Does .lostRecordWrite s (fun t => written { r with frame := d.clk.frame } t ∧ t.log.series = rest ∧ t.log.fifo = d.log.fifo)))

/-! ### Streams and network time -/

/-- R281, R284, R285, R289, R292, R306. A media packet that matches no enabled leg is ignored, one that matches but breaks a
check of R284 is counted, and one that a single stream accepts is counted and then dropped as late, early or a duplicate, or
filed with every sample time it carries. A querier's version sets the IGMP mode, and joined groups are reported from the module's own address in that version's form. ARP is
answered for the pair address by the sender, and for the module's own. A link change is shown. The receive cut-off falls
in its cycle. -/
def Obligations.StreamReceive : Prop :=
  ∀ (s : State) (net : Fin 2), awake s.dev = true →
    let d := s.dev
    let x := net.val
    let one (f : Fld) (t : Dev) : Prop := rd t f = min (rd d f + 1) (2 ^ 32 - 1)
    let own : NetAddr := ⟨rd d (strmMacLo x) + rd d (strmMacHi x) * 2 ^ 32, BitVec.ofNat 32 (rd d (strmIp x))⟩
    (strmRunning d x = false → (∀ pkt : MediaPacket, pkt.net = net → Does (.rxPacket pkt) s (fun t => t = d)) ∧
      (∀ v, Does (.igmpQuery net v) s (fun t => t = d)) ∧ (∀ ip, Does (.arpRequest net ip) s (fun t => t = d))) ∧
    (strmRunning d x = true → flag d (strmVlanEn x) = false →
      (∀ pkt : MediaPacket, pkt.net = net →
        ((∀ n, n < 128 → rxMatches d pkt n = false) → Does (.rxPacket pkt) s (fun t => t = d)) ∧
        ((∃ n, n < 128 ∧ rxMatches d pkt n = true) → (∀ n, n < 128 → rxAccepts d pkt n = false) →
          Does (.rxPacket pkt) s (fun t => t = inc d (strmRxFormatDrop x))) ∧
        (∀ n, n < 128 → rxAccepts d pkt n = true → (∀ m, m < 128 → m ≠ n → rxAccepts d pkt m = false) →
          let i := rtpIndex d (rd d (rxRtpOffset n)) pkt.ts
          let base := i.toNat
          let len := nSamp d * rxFrames d n
          let first := base / nSamp d + rd d (rxDepth n)
          let last := (base + len - 1) / nSamp d + rd d (rxDepth n)
          let now := d.clk.frame.toNat
          let known := ∃ j, j < len ∧ (filedGet d x n (base + j)).samples ≠ []
          ((i < 0 ∨ first < now) → Does (.rxPacket pkt) s (fun t => one (strmRxPkts x) t ∧ one (strmRxLate x) t ∧
            t.strm.filed = d.strm.filed)) ∧
          (0 ≤ i → now ≤ first → now + 15 < last → Does (.rxPacket pkt) s (fun t => one (strmRxPkts x) t ∧
            one (strmRxEarly x) t ∧ t.strm.filed = d.strm.filed)) ∧
          (0 ≤ i → now ≤ first → last ≤ now + 15 → known → Does (.rxPacket pkt) s (fun t => one (strmRxPkts x) t ∧
            one (strmRxDup x) t ∧ t.strm.filed = d.strm.filed)) ∧
          (0 ≤ i → now ≤ first → last ≤ now + 15 → ¬known → Does (.rxPacket pkt) s (fun t => one (strmRxPkts x) t ∧
            ∀ j, j < len → (filedGet t x n (base + j)).samples =
              (List.range (rxChans d n)).map (fun c => payloadSample (rd d (rxFmt n)) (rxChans d n) pkt.payload j c))))) ∧
      (∀ v : Fin 4, Does (.igmpQuery net v) s (fun t =>
        rd t (strmIgmpMode x) = (if v.val = 1 then 1 else if v.val = 2 then 2 else 3) ∧
        ∀ n, n < 128 → flag d (rxEn n) = true → rxLeg d n x = true → isMulticast (rxDst d n x) = true →
          ∃ m, .igmp x own m ∈ t.out.net ∧ m.version = rd t (strmIgmpMode x) ∧ m.leave = false ∧
            m.group = BitVec.ofNat 32 (rxDst d n x) ∧
            (m.version = 3 → (rxSrc d n x = 0 → m.exclude = true) ∧
              (m.exclude = false → BitVec.ofNat 32 (rxSrc d n x) ∈ m.sources)) ∧
            (m.version ≠ 3 → m.exclude = false ∧ m.sources = []))) ∧
      (∀ ip : W32,
        let pair := ip.toNat = rd d (strmPairIp x) ∧ txActive s.role.state d x = true
        (pair → Does (.arpRequest net ip) s (fun t => t.regs = d.regs ∧
          t.out.net = .arpReply x ip (rd d (strmPairMacLo x) + rd d (strmPairMacHi x) * 2 ^ 32) :: d.out.net)) ∧
        (¬pair → ip.toNat = rd d (strmIp x) → Does (.arpRequest net ip) s (fun t => t.regs = d.regs ∧
          t.out.net = .arpReply x ip (rd d (strmMacLo x) + rd d (strmMacHi x) * 2 ^ 32) :: d.out.net)) ∧
        (¬pair → ip.toNat ≠ rd d (strmIp x) → Does (.arpRequest net ip) s (fun t => t = d)))) ∧
    (∀ up : Bool, (flag d (strmLinkUp x) = up → Does (.sfpLinkChange net up) s (fun t => t = d)) ∧
      (flag d (strmLinkUp x) ≠ up → Does (.sfpLinkChange net up) s (fun t => flag t (strmLinkUp x) = up ∧
        bit (rd t (hdrEvtFlag (.strm net))) 0 = true))) ∧
    Does .rxCutoff s (fun t => t.strm.cut = true ∧ t.regs = d.regs ∧
      t.clk.cycle = if mtuOf d 0 ≤ 1500 ∧ mtuOf d 1 ≤ 1500 then 120832 else 119808)

/-- R300 to R303, R307. The servo of network time: a Sync of the network followed shows its offset and correction, locks after
16 within 100 ns, loses lock beyond 200 ns, and goes to holdover beyond 10 µs once frames run; messages go out only on a
link that is up; the best Announce in the module's domain of the network selected is followed, and where none is left the module becomes the
grandmaster, or goes to holdover and from there to free run. Before the first frame the time is set at once. That the command
carries what the servo's filter gives, and that a step is floored to frames, is the model's choice (log entry 46). -/
def Obligations.NetworkTime : Prop :=
  ∀ (s : State) (net : Fin 2), awake s.dev = true →
    let d := s.dev
    let x := net.val
    let clamp (v : Int) : Nat := (BitVec.ofInt 32 (max (-2147483648) (min v 2147483647))).toNat
    let head (interval : Fld) : PtpHead := ⟨⟨rd d (strmMacLo x) + rd d (strmMacHi x) * 2 ^ 32, BitVec.ofNat 32 (rd d (strmIp x))⟩,
      BitVec.ofNat 8 (rd d ptpDomain), BitVec.ofNat 8 (rd d interval)⟩
    (∀ (dom : Byte) (off freq : Int),
      ((ptpRunning d = false ∨ dom.toNat ≠ rd d ptpDomain ∨ ptpNet d ≠ x ∨ d.ptp.gm = true) →
        Does (.ptpSyncRx ⟨net, dom⟩ off freq) s (fun t => t = d)) ∧
      (ptpRunning d = true → dom.toNat = rd d ptpDomain → ptpNet d = x → d.ptp.gm = false →
        Does (.ptpSyncRx ⟨net, dom⟩ off freq) s (fun t =>
        let streak := if off.natAbs ≤ 100 then d.ptp.streak + 1 else 0
        t.ptp.filt = off ∧ t.ptp.streak = streak ∧ rd t ptpOffsetNs = clamp off ∧
        rd t ptpFreqPpb = clamp (max (-10000) (min 10000 freq)) ∧ rd t ptpActiveNet = x ∧
        rd t ptpState = (if d.ptp.running = true ∧ 10000 < off.natAbs then 3
          else if rd d ptpState = 2 then (if 200 < off.natAbs then 1 else 2)
          else if 16 ≤ streak then 2 else 1)))) ∧
    (ptpRunning d = true → flag d (strmLinkUp x) = true →
      (d.ptp.gm = false → Does (.ptpDelayReqTx net) s (fun t => t.regs = d.regs ∧ t.out.net = .ptpDelayReq x (head ptpLogDelayReq) :: d.out.net ∧
        tget (fun _ => false) t.ptp.delayReq x = true)) ∧
      (d.ptp.gm = true → Does (.ptpSyncTx net) s (fun t => t.regs = d.regs ∧
        t.out.net = .ptpSync x (head ptpLogSync) (ptpNs d) :: .ptpAnnounce x (head ptpLogAnnounce) (ownAnnounce d x) :: d.out.net ∧
        (ownAnnounce d x).priority1.toNat = rd d ptpPriority1 ∧ (ownAnnounce d x).priority2.toNat = rd d ptpPriority2 ∧
        (ownAnnounce d x).clockClass.toNat = rd d ptpClockClass))) ∧
    ((ptpRunning d = false ∨ flag d (strmLinkUp x) = false) → Does (.ptpDelayReqTx net) s (fun t => t = d) ∧
      Does (.ptpSyncTx net) s (fun t => t = d)) ∧
    (∀ (dom : Byte) (delay : Int), ptpRunning d = true →
      (dom.toNat = rd d ptpDomain → tget (fun _ => false) d.ptp.delayReq x = true → Does (.ptpDelayRespRx ⟨net, dom⟩ delay) s (fun t => t.regs = d.regs ∧
        tget (fun _ => 0) t.ptp.delay x = delay ∧ tget (fun _ => false) t.ptp.delayReq x = false)) ∧
      ((dom.toNat ≠ rd d ptpDomain ∨ tget (fun _ => false) d.ptp.delayReq x = false) → Does (.ptpDelayRespRx ⟨net, dom⟩ delay) s (fun t => t = d))) ∧
    (∀ a : Announce, a.net = net → a.domain.toNat = rd d ptpDomain → ptpRunning d = true → ptpSelOf d = x → ptpBest d x = none → flag d ptpGmCapable = false →
      Does (.ptpAnnounceRx a) s (fun t => ptpBest t x = some a ∧ rd64 t ptpGmIdLo ptpGmIdHi = a.gmId.toNat ∧
        rd t ptpStepsRemoved = (a.steps.toNat + 1) % 2 ^ 16 ∧ rd t ptpActiveNet = x ∧ t.ptp.gm = false ∧
        rd t ptpState = (if rd d ptpState = 2 then 2 else 1))) ∧
    (ptpRunning d = true → ptpSelOf d = x →
      (flag d ptpGmCapable = true → Does (.ptpAnnounceTimeout net) s (fun t => ptpBest t x = none ∧ t.ptp.gm = true ∧
        rd t ptpState = 5 ∧ rd64 t ptpGmIdLo ptpGmIdHi = Config.clockIdentity.toNat)) ∧
      (flag d ptpGmCapable = false → (s.role.state = .partner ∧ d.twin.linkUp = true) →
        Does (.ptpAnnounceTimeout net) s (fun t => ptpBest t x = none ∧ rd t ptpState = 4)) ∧
      (flag d ptpGmCapable = false → (s.role.state ≠ .partner ∨ d.twin.linkUp = false) →
        Does (.ptpAnnounceTimeout net) s (fun t => ptpBest t x = none ∧
          rd t ptpState = (if rd d ptpState = 0 then 0 else 3)))) ∧
    (rd d ptpState = 3 → Does .ptpHoldoverExpire s (fun t => rd t ptpState = 0 ∧ rd t ptpFreqPpb = 0 ∧ t.ptp.freq = 0)) ∧
    (rd d ptpState ≠ 3 → Does .ptpHoldoverExpire s (fun t => t = d)) ∧
    (∀ ns : Word, (d.ptp.running = true → Does (.ptpInitialStep ns) s (fun t => t = d)) ∧
      (d.ptp.running = false → Does (.ptpInitialStep ns) s (fun t => t.clk.frame.toNat = ns.toNat / 125000 ∧
        t.clk.cycle = 0 ∧ rd t ptpStepCount = min (rd d ptpStepCount + 1) (2 ^ 32 - 1) ∧ t.mem = d.mem)))

/-! ### Supervision, tags and wear -/

/-- R316, R318, R322, R325 to R328, R336. A window's estimate has the number of its last frame, and no value in a band
that carried no probe, nor in any band when more than a quarter of its frames were lost. A set is published at frame
cycle 4,096 of the 17th frame period after its last frame, where memory holds its block: the next number of the block
stands at both its ends, PUBLISH_COUNT counts, and LAST_STATE shows its LINE_STATE. The entries of a group are read through the
channel cache as it begins (log entry 122). In an active night window a
group's sweep begins with its first frame and once: its supervised lines whose entries ask for it play, but for those
with emergency audio, which are incomplete. The level is set as the level-setting frames end and a step is measured as
its frames end, on the lines of the group in its sweep alone: a line that plays gets the step's phasors, once, unless
more than a quarter of its samples were lost, or its BULK_DELAY is too long, which makes it incomplete; more than 2 V
stops a line's tone. The end of a group forms its results, which is the model's choice (log entry 55), and the end of a window its
record. -/
def Obligations.SupervisionAndNight : Prop :=
  (∀ (s : State) (k : Line), awake s.dev = true →
    let d := s.dev
    let l := supLine d k.val
    let a := resLine d k.val
    (l.ended = none → Does (.supWindowEnd k) s (fun t => t = d)) ∧
    (∀ w, l.ended = some w → Does (.supWindowEnd k) s (fun t => t.regs = d.regs ∧ t.mem = d.mem ∧
      (supLine t k.val).ended = none ∧ ∃ e, (supLine t k.val).est = some e ∧
        e.frame = BitVec.ofNat 64 (w.j * (1024 * 2 ^ w.acc) + 1024 * 2 ^ w.acc - 1) ∧ e.acc = w.acc ∧ e.night = w.night ∧
        e.bands.length = 24 ∧ (∀ b, b < 24 → bit w.loud b = false → nth e.bands b none = none) ∧
        (1024 * 2 ^ w.acc < 4 * (w.sense.filter (fun f => f.isNone)).length → ∀ b, b < 24 → nth e.bands b none = none))) ∧
    (l.est = none → Does (.supPublish k) s (fun t => t = d)) ∧
    (∀ e, l.est = some e →
      (d.clk.frame.toNat ≠ e.frame.toNat + 17 → Does (.supPublish k) s (fun t => t = d)) ∧
      (d.clk.frame.toNat = e.frame.toNat + 17 → inRam a = true → inRam (a + 0xFF) = true → eccHit d a 0x100 = false →
        fenced d a 0x100 = false → guardOf d a 0x100 ≠ some .bobbin → Does (.supPublish k) s (fun t => t.clk.cycle = 4096 ∧ (supLine t k.val).est = none ∧
        (∃ n, n = (if rdN d a 4 = 0xFFFFFFFF then 1 else rdN d a 4 + 1) ∧ rdN t a 4 = n ∧ rdN t (a + 0xF8) 4 = n) ∧
        rd t supPublishCount = min (rd d supPublishCount + 1) (2 ^ 32 - 1) ∧
        rd t (supLastState k.val) = lineState d k.val (countedBands d k.val e)))) ∧
    (l.nightSet = none → Does (.nightPublish k) s (fun t => t = d)) ∧
    (∀ e, l.nightSet = some e →
      (d.clk.frame.toNat ≠ e.frame.toNat + 17 → Does (.nightPublish k) s (fun t => t = d)) ∧
      (d.clk.frame.toNat = e.frame.toNat + 17 → inRam (a + 0x100) = true → inRam (a + 0x17F) = true →
        eccHit d (a + 0x100) 0x80 = false → fenced d (a + 0x100) 0x80 = false → guardOf d (a + 0x100) 0x80 ≠ some .bobbin → Does (.nightPublish k) s (fun t => t.clk.cycle = 4096 ∧
        (supLine t k.val).nightSet = none ∧
        (∃ n, n = (if rdN d (a + 0x100) 4 = 0xFFFFFFFF then 1 else rdN d (a + 0x100) 4 + 1) ∧ rdN t (a + 0x100) 4 = n ∧
          rdN t (a + 0x178) 4 = n) ∧
        rd t supPublishCount = min (rd d supPublishCount + 1) (2 ^ 32 - 1))))) ∧
  (∀ (s : State) (g : Fin 8), awake s.dev = true →
    let d := s.dev
    let inGroup (k : Nat) : Prop := 24 * g.val ≤ k ∧ k < 24 * g.val + 24
    (d.sup.night = none → Does (.nightGroupBegin g) s (fun t => t = d) ∧ Does (.nightLevelSet g) s (fun t => t = d) ∧
      Does (.nightGroupEnd g) s (fun t => t = d) ∧ ∀ i, Does (.nightStepEnd g i) s (fun t => t = d)) ∧
    (∀ w, d.sup.night = some w →
      let b := w.frame.toNat + groupLen d * g.val
      let n := (workFrame d).toNat
      let r := readLines (groupFinish d)
      let may := flag d supNightActive = true ∧ bit w.groups g.val = true ∧ g.val ∉ w.begun ∧ n = b
      (¬may → Does (.nightGroupBegin g) s (fun t => t = d)) ∧
      (may → Does (.nightGroupBegin g) s (fun t => flag t supSweeping = true ∧ rd t supNightGroup = g.val ∧
        (∃ v, t.sup.night = some v ∧ v.group = some g.val ∧ v.begun = g.val :: w.begun) ∧
        (∀ k, inGroup k → (supLine d k).on = true → entNightEn (entryNow r k) = true →
          ∃ x, (supLine t k).sweep = some x ∧ x.playing = !emergency r k ∧ x.incomplete = emergency r k ∧ x.steps = [] ∧
            x.sense = []) ∧
        (∀ k, ¬(inGroup k ∧ (supLine d k).on = true ∧ entNightEn (entryNow r k) = true) →
          supLine t k = supLine (groupFinish d) k))) ∧
      (w.group ≠ some g.val → Does (.nightLevelSet g) s (fun t => t = d) ∧ Does (.nightGroupEnd g) s (fun t => t = d) ∧
        ∀ i, Does (.nightStepEnd g i) s (fun t => t = d)) ∧
      (w.group = some g.val →
        let inSweep (k : Nat) (x : NightLine) : Prop := inGroup k ∧ (supLine d k).sweep = some x
        let outside (t : Dev) : Prop := ∀ k, ¬inGroup k → supLine t k = supLine d k
        (atFrame d (b + 63) = false → Does (.nightLevelSet g) s (fun t => t = d)) ∧
        (atFrame d (b + 63) = true → Does (.nightLevelSet g) s (fun t => t.regs = d.regs ∧ outside t ∧
          ∀ k x, inSweep k x → ∃ v, (supLine t k).sweep = some { x with level := v })) ∧
        (∀ i : Fin 16,
          let at_ := i.val < sweepSteps d ∧ atFrame d (b + 319 + 256 * i.val) = true
          let span (k : Nat) (x : NightLine) : List (Option (Int × Int)) :=
            sweepSpan d k x b (64 + 256 * i.val) (if is48 d then 240 else 480) (if is48 d then 1391 else 2879)
          (¬at_ → Does (.nightStepEnd g i) s (fun t => t = d)) ∧
          (at_ → Does (.nightStepEnd g i) s (fun t => t.regs = d.regs ∧ outside t ∧ ∀ k x, inSweep k x →
            let done := x.playing = false ∨ ∃ e ∈ x.steps, e.1 = i.val
            let far := (if is48 d then 144 else 192) < rd d (supBulkDelay k)
            let lost := (span k x).length < 4 * ((span k x).filter (fun y => y.isNone)).length
            (done → supLine t k = supLine d k) ∧
            (¬done → far → (supLine t k).sweep = some { x with incomplete := true }) ∧
            (¬done → ¬far → lost → supLine t k = supLine d k) ∧
            (¬done → ¬far → ¬lost → ∃ u v, (supLine t k).sweep = some { x with steps := x.steps ++ [(i.val, u, v)] })))) ∧
        (let at_ := (n = b + groupLen d - 1 ∧ 109568 ≤ d.clk.cycle) ∨ (n = b + groupLen d ∧ d.clk.cycle ≤ 109568)
         (¬at_ → Does (.nightGroupEnd g) s (fun t => t = d)) ∧
         (at_ → Does (.nightGroupEnd g) s (fun t => flag t supSweeping = false ∧ outside t ∧
          (∃ v, t.sup.night = some v ∧ v.group = none) ∧
          (∀ k x, inSweep k x → (supLine t k).sweep = none ∧ ∃ r, (supLine t k).nightSet = some r ∧
            r.frame = BitVec.ofNat 64 (b + groupLen d - 1) ∧ r.measured = x.steps.length)))))) ∧
    (∀ (m : Nat) (k : Line) (x : NightLine) (l : List (Int × Int)), supRunning d = true → lineSup d k.val = true →
      (supLine d k.val).sweep = some x → x.playing = true → 64 ≤ groupFrame d m → senseFrame d k.val = some l →
      flt (fint 2) (rmsVolts d k.val (l.map (fun y => y.1))) = true →
      ∃ y, (supLine (supSenseLine m k.val d) k.val).sweep = some y ∧ y.playing = false ∧ y.overload = true) ∧
    (d.sup.ended = none → Does .nightWindowEnd s (fun t => t = d)) ∧
    (∀ w, d.sup.ended = some w → Does .nightWindowEnd s (fun t => t.sup.ended = none ∧ t.mem = d.mem ∧
      bit (rd t (hdrEvtFlag .sup)) 1 = true)))

/-- R345, R346, R348 to R351, R353. A free lane takes the line queued. A lane takes up a frame that its step calls for, or one
of the pages 3 to 7 that no step reads (that these may be read at any time the lane is free is read from R350 and R353, log
entry 146), and sends it from the tick of a frame whose number is a multiple of 8 on, unless tones before it have not ended, or
emergency audio or the night measurement forbids it: the line then carries the tones of its bits, and the uplink is measured after them. In the
walk of R351 the bits measured extend the ID known, a collision notes its place and takes the branch of 0, the last of a walk
leaves the count of the tags, and a first burst with no tag ends the line with no tags found. A reply with wrong bits or a bad
CRC, a frame that is not this transaction's reply, and none at all, are counted; a page read is kept. (What shows that a reply
has begun, and that a command for another line does nothing, is the model's reading, log entry 147.) Page-2 writes become due at their time of day. -/
def Obligations.TagTransactions : Prop :=
  ∀ (s : State) (i : Fin 24), awake s.dev = true →
    let d := s.dev
    let took (c : Instr) (l : TagLane) (cmd addr : Nat) : Prop := Does c s (fun t => t.regs = d.regs ∧
      tagLane t i.val = some { l with tx := some ⟨cmd, addr, false, 0⟩ } ∧ ∀ j, j ≠ i.val → tagLane t j = tagLane d j)
    (∀ k : Line, d.tag.queue = [k.val] → flag d (hdrActive .tag) = true → flag d tagEnum = true →
      (∀ j, j < i.val → (tagLane d j).isSome = true) → tagLane d i.val = none →
      Does .tagLaneAssign s (fun t => t.tag.queue = [] ∧ tagLane t i.val = some ⟨k.val, 1, none, none, [], [], [], none⟩ ∧
        rd t (tagLstate k.val) = 2 ∧ ∀ j, j ≠ i.val → tagLane t j = tagLane d j)) ∧
    (tagLane d i.val = none → Does (.tagDownlinkStart i) s (fun t => t = d) ∧ Does (.enumStart i) s (fun t => t = d) ∧
      (∀ a, Does (.ping i a) s (fun t => t = d)) ∧ (∀ k, Does (.enumBurstEnd i k) s (fun t => t = d) ∧
        Does (.tagReplyRx i k) s (fun t => t = d)) ∧ Does (.tagReplyTimeout i) s (fun t => t = d)) ∧
    (∀ l, tagLane d i.val = some l → l.tx = none → l.walk = none →
      (l.step = 1 → took (.enumStart i) l 0x01 0xFFFF) ∧
      (∀ a : BitVec 16, took (.ping i a) l 0x02 a.toNat) ∧
      (∀ (page : Fin 8) (a : BitVec 16), (3 ≤ page.val ∨ l.todo.head? = some (0x10 + page.val, a.toNat)) →
        took (.readPage i page a) l (0x10 + page.val) a.toNat) ∧
      (∀ (page : Fin 8) (id : Word), took (.readPageId i page id) l (0x90 + page.val) id.toNat) ∧
      (∀ a : BitVec 16, l.todo.head? = some (0x22, a.toNat) → took (.writePage i 2 a) l 0x22 a.toNat)) ∧
    (∀ l x, tagLane d i.val = some l → l.tx = some x → x.sent = false → x.cmd ≠ 0x22 →
      let may := is48 d = false ∧ flag d (hdrActive .tag) = true ∧ d.clk.frame.toNat % 8 = 0 ∧ d.clk.cycle = 0 ∧
        tonesLeft d l.line = false ∧ emergency d l.line = false ∧ clearOfNight d l.line (txFrames x.cmd) = true
      (¬may → Does (.tagDownlinkStart i) s (fun t => t = d)) ∧
      (may → Does (.tagDownlinkStart i) s (fun t => t.regs = d.regs ∧
        (∃ y m, tagLane t i.val = some y ∧ y.tx = some m ∧ m.sent = true ∧ m.cmd = x.cmd ∧
          y.walk = (if x.cmd = 1 then some ⟨[], true, [], []⟩ else none) ∧
          y.up = some ⟨96 * (tagFrameBits x.cmd x.addr []).length + (if x.cmd = 1 then 96 else 192), [], none, []⟩) ∧
        tagSig t l.line = some ⟨l.line, (workFrame d).toNat, bitTones (tagFrameBits x.cmd x.addr []), true, none⟩))) ∧
    (∀ l w, tagLane d i.val = some l → l.walk = some w →
      (∀ k : Line, l.line ≠ k.val → Does (.enumBurstEnd i k) s (fun t => t = d)) ∧
      (∀ k : Line, l.line = k.val → w.known.length < 64 →
      let len := min 8 (64 - w.known.length)
      let bits := (laneBits l).take len
      ((laneBits l).length < len → Does (.enumBurstEnd i k) s (fun t => t = d)) ∧
      (len ≤ (laneBits l).length → (∀ x ∈ bits, x = .zero ∨ x = .one) →
        (w.known.length + 8 < 64 → Does (.enumBurstEnd i k) s (fun t =>
          t.regs = d.regs ∧ ∃ y v, tagLane t i.val = some y ∧ y.walk = some v ∧ v.first = false ∧
            v.known = w.known ++ bits.map (fun x => x == .one) ∧ v.waiting = w.waiting)) ∧
        (64 ≤ w.known.length + 8 → w.waiting = [] → w.ids.length < 64 → Does (.enumBurstEnd i k) s (fun t =>
          rd t (tagTags l.line) = w.ids.length + 1))) ∧
      (∀ j, len ≤ (laneBits l).length → UpBit.empty ∉ bits → bits[j]? = some .collision →
        (∀ m, m < j → bits[m]? ≠ some .collision) → Does (.enumBurstEnd i k) s (fun t => t.regs = d.regs ∧
          ∃ y v, tagLane t i.val = some y ∧ y.walk = some v ∧ v.waiting = (w.known.length + j) :: w.waiting ∧
            v.known = w.known ++ (bits.take j).map (fun x => x == .one) ++ [false])) ∧
      (len ≤ (laneBits l).length → w.first = true → bits.head? = some .empty → Does (.enumBurstEnd i k) s (fun t =>
        tagLane t i.val = none ∧ rd t (tagTags l.line) = 0 ∧ rd t (tagLstate l.line) = 6 ∧
          rd t (tagReason l.line) = 0)))) ∧
    (∀ l x e more, tagLane d i.val = some l → l.tx = some x → x.sent = true → l.walk = none → l.step = 2 →
      l.todo = (x.cmd, x.addr) :: e :: more →
      let next (y : TagLane) : Prop := y.tx = none ∧ y.todo = e :: more ∧ y.step = 2 ∧ y.up = none
      let bits := (laneBits l).take (replyBits x)
      let begun := replyBegun l = true
      let wrong := replyFrame bits = none ∨ ∃ f, replyFrame bits = some f ∧
        ofBe (f.drop (f.length - 2)) ≠ crc16 (f.take (f.length - 2))
      (∀ k : Line, l.line = k.val → begun → replyBits x ≤ (laneBits l).length → wrong →
        Does (.tagReplyRx i k) s (fun t => rd t tagCrcErrCount = min (rd d tagCrcErrCount + 1) (2 ^ 32 - 1) ∧
          ∃ y, tagLane t i.val = some y ∧ next y ∧ y.pages = l.pages)) ∧
      (∀ (k : Line) (f : List Byte), l.line = k.val → begun → replyBits x ≤ (laneBits l).length → replyFrame bits = some f →
        ofBe (f.drop (f.length - 2)) = crc16 (f.take (f.length - 2)) → replyData x f = none →
        Does (.tagReplyRx i k) s (fun t => rd t tagNoReplyCount = min (rd d tagNoReplyCount + 1) (2 ^ 32 - 1) ∧
          ∃ y, tagLane t i.val = some y ∧ next y ∧ y.pages = l.pages)) ∧
      (∀ (k : Line) (page : Fin 8) (p : List Byte), l.line = k.val → begun → replyBits x ≤ (laneBits l).length → x.cmd = 0x10 + page.val → p.length = 32 →
        (let body := tagBody (x.cmd + 0x40) x.addr p
         replyFrame bits = some (body ++ beBytes 2 (crc16 body))) →
        Does (.tagReplyRx i k) s (fun t => ∃ y, tagLane t i.val = some y ∧ next y ∧
          y.pages = (x.addr, page.val, p) :: l.pages)) ∧
      (∀ k : Line, (l.line ≠ k.val ∨ ¬begun ∨ (laneBits l).length < replyBits x) → Does (.tagReplyRx i k) s (fun t => t = d)) ∧
      (laneBits l ≠ [] → ¬begun → Does (.tagReplyTimeout i) s (fun t =>
        rd t tagNoReplyCount = min (rd d tagNoReplyCount + 1) (2 ^ 32 - 1) ∧
        ∃ y, tagLane t i.val = some y ∧ next y ∧ y.pages = l.pages)) ∧
      ((laneBits l = [] ∨ begun) → Does (.tagReplyTimeout i) s (fun t => t = d))) ∧
    (let due := (if rd d tagWriteOffset ≤ 86399 then rd d tagWriteOffset else 7200) * 1000000000 ≤
        (ptpNs d).toNat % 86400000000000
     (due → Does .tagWriteDue s (fun t => t.regs = d.regs ∧ t.tag.dueDay = some ((ptpNs d).toNat / 86400000000000))) ∧
     (¬due → Does .tagWriteDue s (fun t => t = d)))

/-- R356, R358. While WEAR works it steps in frame cycles 0 to 4,095 of each period whose number is a multiple of 64, once:
every supervised line's power is the mean of its powers since the last step, its derating rises by 16 to at most 1,536, falls
by 2, or stays, and HOT_LINES counts the lines derated. Outside those cycles nothing is stepped. -/
def Obligations.WearStep : Prop :=
  ∀ s : State, awake s.dev = true →
    let d := s.dev
    let due := (flag d (hdrActive .wear) = true ∨ flag d (hdrQuiescing .wear) = true) ∧ d.clk.frame.toNat % 64 = 0 ∧
      d.clk.cycle < 4096 ∧ d.wear.stepped ≠ some d.clk.frame
    (¬due → exec .wearStep s = .next s) ∧
    (due → ∃ t, exec .wearStep s = .next t ∧ t.pending = s.pending ∧ t.role = s.role ∧
      t.dev.wear.stepped = some d.clk.frame ∧
      (∀ k, k < 192 → lineSup d k = true →
        let old := wearLine d k
        let new := wearLine t.dev k
        new.powers = [] ∧
        new.p = (if old.powers = [] then old.p else fdiv (fsum old.powers) (fint old.powers.length)) ∧
        (new.derate = min (old.derate + 16) 1536 ∨ new.derate = old.derate - 2 ∨ new.derate = old.derate)) ∧
      (∀ k, (192 ≤ k ∨ lineSup d k = false) → wearLine t.dev k = wearLine d k) ∧
      rd t.dev wearHotLines = ((List.range 192).filter (fun k => (wearLine t.dev k).derate != 0)).length)

/-! ### Lockstep and debug -/

/-- R366, R369 to R371, R373, R375 to R377, R379, R384. A fault of a pair that is live and not under injection freezes it: it
waits for its twin, or for a cold restart where there is none, or, where its ACTIVE mask differs from its twin's, is quarantined
at once; the fault counts in its class, is captured and shown; the third in a window quarantines it. Of several faults in one
cycle the highest class is recorded: a checker's before a delay path's before a divergence, to which differing reads of the local
window and an ECC error in one ply belong. A difference in a group of the state sweep is latent and waits for the tick, unless a
boundary fault has frozen the pair in this frame; there the twin's word decides which ply is right, without one ply A's word is
taken as unresolved, and a word that neither ply holds is a divergence. A pair that is not live, or under injection, ignores it. (The GROUP of an ECC
error is the model's choice, log entry 170.) -/
def Obligations.LockstepFaults : Prop :=
  ∀ (s : State) (p : Pair) (port : BitVec 12) (b : Word), awake s.dev = true →
    let d := s.dev
    let live := pstate d p = 1 ∨ pstate d p = 3 ∨ pstate d p = 4 ∨ pstate d p = 6 ∨ pstate d p = 7
    let x := ply d p
    let kind (f : PlyFault) : FaultClass :=
      match f with
      | .checker _ => .checker
      | .delay _ => .delayPath
      | .difference g => if g.val < 34 then .divergence else .latent
      | .windowRead _ | .eccOnePly _ => .divergence
    let place (f : PlyFault) : Nat :=
      match f with
      | .checker g | .difference g => g.val
      | .delay n => n.val
      | .windowRead a => 23 + a.toNat % 16 / 2
      | .eccOnePly _ => 0
    (∀ f l, (¬live ∨ x.injecting = true) → Does (.comparatorMismatch p f l port b) s (fun t => t = d)) ∧
    (live → x.injecting = false → (∀ (g : PlyFault) (l : List PlyFault) (f : PlyFault) (code : Nat) (count : Fld),
      f ∈ g :: l →
      ((kind f = .checker ∧ code = 0x101 ∧ count = plyCheckerCount p) ∨
        (kind f = .delayPath ∧ code = 0x102 ∧ count = plyDelayCount p ∧ (∀ h ∈ g :: l, kind h ≠ .checker)) ∨
        (kind f = .divergence ∧ code = 0x100 ∧ count = plyDivergeCount p ∧
          (∀ h ∈ g :: l, kind h ≠ .checker ∧ kind h ≠ .delayPath))) →
      (∀ h ∈ g :: l, kind h = kind f → place h = place f) →
      (Does (.comparatorMismatch p g l port b) s (fun t => Captured (.ply p) code d t ∧
        rd t count = min (rd d count + 1) (2 ^ 32 - 1) ∧ rd t (plyLastFaultClass p) = code - 0x100 ∧
        rd t (plyLastFaultGroup p) = place f ∧ flag t (plyDbgHalted p) = false ∧ t.mem = d.mem ∧ (ply t p).latent = [] ∧
        ∀ a, (.windowRead a ∈ g :: l ∨ .eccOnePly a ∈ g :: l) → a.toNat ∈ (Machine.core t p).plyMem)) ∧
      (x.faults = [] → (paired s.role.state d = false ∨ masksDiffer d p = false) →
        Does (.comparatorMismatch p g l port b) s (fun t => pstate t p = 2 ∧ (ply t p).frozen = some d.clk.frame ∧
          (ply t p).cold = !paired s.role.state d ∧ shown s.role t (.ply p) 0x54 = some 1)) ∧
      (x.faults = [] → paired s.role.state d = true → masksDiffer d p = true →
        Does (.comparatorMismatch p g l port b) s (fun t => pstate t p = 5 ∧ (ply t p).mismatched = true)) ∧
      (∀ f h, x.faults = [f, h] → d.clk.frame.toNat - f.toNat < 4800000 → d.clk.frame.toNat - h.toNat < 4800000 →
        Does (.comparatorMismatch p g l port b) s (fun t => pstate t p = 5))) ∧
      (∀ f : PlyFault, kind f = .latent →
        let a := sweptWord (Machine.core (settle p d) p) port.toNat
        (port.toNat ≤ 0xD0 → frozeNow d p = false → a ≠ b → Does (.comparatorMismatch p f [] port b) s (fun t =>
          t.regs = d.regs ∧ t.mem = d.mem ∧ (ply t p).latent = x.latent ++ [(port.toNat, a, b)] ∧
          ∀ q ∈ sweptPorts port.toNat a b, (Machine.core t p).plyB.any (fun e => e.1 == q) = true)) ∧
        ((0xD0 < port.toNat ∨ frozeNow d p = true ∨ a = b) → Does (.comparatorMismatch p f [] port b) s (fun t => t = d)))) ∧
    (∀ (q : Nat) (a : Word), q < 0x80 → x.latent = [(q, a, b)] → pstate d p = 1 → x.faults = [] → (Machine.core d p).port q = a →
      tget (fun _ => none) (Machine.core d p).plyB q = some b → a ≠ b → d.commit.held = [] → d.ptp.steps = [] →
      d.twin.dying = false → d.twin.stopping = false → d.cht.armed = none → d.twin.peerSwitch = none →
      flag d (hdrQuiescing (.ply p)) = false → flag d (hdrHalt (.ply p)) = false →
      let noted (u : Bool) (t : State) : Prop := pstate t.dev p = 1 ∧ (ply t.dev p).latent = [] ∧ Captured (.ply p) 0x103 d t.dev ∧
        rd t.dev (plyLatentCount p) = min (rd d (plyLatentCount p) + 1) (2 ^ 32 - 1) ∧ rd t.dev (plyLastFaultClass p) = 3 ∧
        rd t.dev (plyLastFaultPort p) = q ∧ flag t.dev (plyLastFaultUnresolved p) = u ∧
        tget (fun _ => none) (Machine.core t.dev p).plyB q = none
      let twin (w : Word) : Prop := s.role.state = .owner ∧ d.twin.linkUp = true ∧ (∃ k, d.twin.sealed = some (d.clk.frame, k)) ∧
        d.twin.sealAcked = some d.clk.frame ∧ masksDiffer d p = false ∧ x.sweepFrame = some d.clk.frame ∧
        tget (fun _ => 0) d.twin.sweep (256 * p + q) = w
      (s.role.state = .alone → d.twin.sent = none →
        Ends .frameTick s (fun t => noted true t ∧ (Machine.core t.dev p).port q = a)) ∧
      (twin a → Ends .frameTick s (fun t => noted false t ∧ (Machine.core t.dev p).port q = a)) ∧
      (twin b → Ends .frameTick s (fun t => noted false t ∧ (Machine.core t.dev p).port q = b)) ∧
      (∀ w, twin w → w ≠ a → w ≠ b → Ends .frameTick s (fun t => pstate t.dev p = 2 ∧
        Captured (.ply p) 0x100 d t.dev ∧
        rd t.dev (plyDivergeCount p) = min (rd d (plyDivergeCount p) + 1) (2 ^ 32 - 1))))

/-- R371, R376 to R380. The way back of a frozen pair: the reset clears it and begins the injection, from the twin, which is asked
for its local memory, or cold; an injection that every checker answered is over, a cold restart then triggers its reload channel,
and a silent one quarantines the pair; the twin's memory is noted; a resynchronisation that takes 64 frames quarantines it; H0
releases a pair that passed its test. At a tick the pair rejoins: from the twin with the words of its swept registers once the copy
came before the sweep, the twin's pair completed in the period and the handler waits; a cold one once its reload has set FULL and
the handler waits. (How the twin is asked is the model's choice, log entry 74.) -/
def Obligations.LockstepRecovery : Prop :=
  ∀ (s : State) (p : Pair), awake s.dev = true →
    let d := s.dev
    let x := ply d p
    let below (u : Nat × Bool) : Bool := decide (u.1 < 0x80000)
    let fresh (cold : Bool) : Core := { Core.reset.goto (rd d (plyRejoinVec p) * 64) with
      upsets := if cold then [] else (Machine.core d p).upsets.filter below
      plyMem := (Machine.core d p).plyMem.filter (fun a => !cold || decide (0x80000 ≤ a)) }
    let ready : Prop := d.commit.held = [] ∧ d.ptp.steps = [] ∧ d.twin.dying = false ∧ d.twin.stopping = false ∧ x.latent = [] ∧
      x.resetDone = true ∧ flag d (hdrQuiescing (.ply p)) = false ∧ (Machine.core d p).waiting.isSome = true
    let rejoins (t : State) : Prop := t.pending = s.pending ∧ pstate t.dev p = 1 ∧ (ply t.dev p).frozen = none ∧
      (ply t.dev p).rejoin = true ∧ rd t.dev (plyRejoinCount p) = min (rd d (plyRejoinCount p) + 1) (2 ^ 32 - 1)
    ((pstate d p = 2 ∨ pstate d p = 4) → x.frozen.isSome = true → x.resetDone = false → x.injecting = false →
      Does (.plyReset p) s (fun t => pstate t p = (if x.cold then 4 else 3) ∧ (ply t p).injecting = true ∧
        Machine.core t p = fresh x.cold ∧ (x.cold = false → t.mem = d.mem) ∧
        (x.cold = false → d.twin.linkUp = true →
          ∃ l n, t.out.apdin = ⟨l, false, n, .bulk 0 (.askMemory p true)⟩ :: d.out.apdin) ∧
        (x.cold = true → ∀ a, localBase p ≤ a → a < localBase p + 0x80000 → rdB t a = 0))) ∧
    (x.frozen = none → Does (.plyReset p) s (fun t => t = d)) ∧
    (∀ silent, x.injecting = false → Does (.injectionEnd p silent) s (fun t => t = d)) ∧
    (x.injecting = true → x.released = false → pstate d p = 3 → Does (.injectionEnd p none) s (fun t =>
      (ply t p).resetDone = true ∧ (ply t p).injecting = false ∧ flag t (plyPstateInjectOk p) = true ∧ pstate t p = 3)) ∧
    (x.injecting = true → x.released = false → pstate d p ≠ 4 → Does (.injectionEnd p none) s (fun t =>
      (ply t p).resetDone = true ∧ (ply t p).injecting = false ∧ flag t (plyPstateInjectOk p) = true ∧
      pstate t p = if pstate d p = 3 ∨ pstate d p = 5 ∨ flag d (hdrEn (.ply p)) = false then pstate d p else 1)) ∧
    (x.injecting = true → x.released = false → pstate d p = 4 →
      let ch := rd d (plyReloadCh p)
      Does (.injectionEnd p none) s (fun t => pstate t p = 4 ∧ (ply t p).resetDone = true ∧ (ply t p).injecting = false ∧
        (ply t p).reloading = true ∧ (ply t p).reloadMark = (spGet d ch).fulls ∧
        (flag d (plyReloadValid p) = false → t.sp = d.sp ∧ flag t (chChStatusLatched ch) = flag d (chChStatusLatched ch)) ∧
        (flag d (plyReloadValid p) = true → flag d (chChCtrlEn ch) = true → flag d (chChStatusActive ch) = false →
          flag d (chChStatusLatched ch) = false → flag t (chChStatusLatched ch) = true))) ∧
    (ready → s.role.state = .alone → d.twin.sent = none → pstate d p = 4 → x.reloading = true →
      (flag d (plyReloadValid p) = false ∨ x.reloadMark < (spGet d (rd d (plyReloadCh p))).fulls) →
      Ends .frameTick s rejoins) ∧
    (∀ k, ready → s.role.state = .owner → d.twin.linkUp = true → d.twin.sealed = some (d.clk.frame, k) →
      d.twin.sealAcked = some d.clk.frame → d.cht.armed = none → d.twin.peerSwitch = none → masksDiffer d p = false →
      pstate d p = 3 → x.copied = true → x.sweepFrame = some d.clk.frame → x.twinDone = some d.clk.frame →
      Ends .frameTick s (fun t => rejoins t ∧
        ∀ i, i < 0x80 → (Machine.core t.dev p).port i = tget (fun _ => 0) d.twin.sweep (256 * p + i))) ∧
    (x.injecting = true → x.released = true → Does (.injectionEnd p none) s (fun t =>
      (ply t p).frozen = none ∧ (ply t p).injecting = false ∧ flag t (plyPstateInjectOk p) = true ∧ pstate t p = 1)) ∧
    (∀ g : Fin 64, x.injecting = true → Does (.injectionEnd p (some g)) s (fun t => pstate t p = 5 ∧
      flag t (plyPstateInjectOk p) = false ∧ rd t (plyPstateInjectGroup p) = g.val ∧ Captured (.ply p) 0x104 d t)) ∧
    (pstate d p = 3 → Does (.resyncCopyComplete p) s (fun t => (ply t p).copied = true ∧ t.regs = d.regs ∧ t.mem = d.mem)) ∧
    (pstate d p ≠ 3 → Does (.resyncCopyComplete p) s (fun t => t = d)) ∧
    (∀ f, x.frozen = some f → x.cold = false → (pstate d p = 2 ∨ pstate d p = 3) →
      (64 ≤ d.clk.frame.toNat - f.toNat → Does (.resyncTimeout p) s (fun t => pstate t p = 5 ∧ Captured (.ply p) 0x106 d t)) ∧
      (d.clk.frame.toNat - f.toNat < 64 → Does (.resyncTimeout p) s (fun t => t = d))) ∧
    (x.frozen = none → Does (.resyncTimeout p) s (fun t => t = d)) ∧
    (∀ ini, accepted s ini (plyQuarRelease p).off 1 = true → pstate d p = 5 ∧ x.tested = true ∧ iniHue d ini = 0 ∧
      Does (.quarRelease ini p) s (fun t => pstate t p = 5 ∧ (ply t p).released = true ∧ (ply t p).injecting = true ∧
        (ply t p).faults = [] ∧ (ply t p).tested = false ∧ shown s.role t (.ply p) 0x54 = some 0 ∧
        Machine.core t p = fresh false))

/-- R105, R382. Debug halts a running pair and resumes a halted one; a halted pair steps one bundle and halts again, shows the
register named and takes a value for it; a pair that is not halted ignores all but the halt. -/
def Obligations.DebugAccess : Prop :=
  ∀ (s : State) (ini : Initiator) (p : Pair),
    let d := s.dev
    let on (v : Nat) : Prop := accepted s ini (plyDbgHalt p).off v = true
    let id := rd d (plyDbgPort p)
    (on 1 → (pstate d p = 1 → Does (.dbgHalt ini p) s (fun t =>
        t = raise (.ply p) 4 (wr (wr d (plyPstateState p) 7) (plyDbgHalted p) 1))) ∧
      (pstate d p ≠ 1 → Does (.dbgHalt ini p) s (fun t => t = d))) ∧
    (on 2 → (pstate d p = 7 → Does (.dbgResume ini p) s (fun t => t = wr (wr d (plyDbgHalted p) 0) (plyPstateState p) 1)) ∧
      (pstate d p ≠ 7 → Does (.dbgResume ini p) s (fun t => t = d))) ∧
    (on 4 → (pstate d p ≠ 7 → Does (.dbgStep ini p) s (fun t => t = d)) ∧
      (∀ b, pstate d p = 7 → fetched { s with dev := wr d (plyPstateState p) 1 } p b = true → illegal b = none →
        bit b 29 = false → fmtField b ≠ 2 → slotsOf b = [] → Does (.dbgStep ini p) s (fun t => pstate t p = 7 ∧
          (Machine.core t p).port 0xEF = opnd { s with dev := wr d (plyPstateState p) 1 } p 0xEF + 1))) ∧
    (on 8 → (pstate d p ≠ 7 → Does (.dbgRead ini p) s (fun t => t = d)) ∧
      (pstate d p = 7 → id < 0x80 → (Machine.core d p).pipe = [] → Does (.dbgRead ini p) s (fun t =>
        rd64 t (plyDbgDataLo p) (plyDbgDataHi p) = ((Machine.core d p).port id).toNat ∧
        flag t (plyDbgDiff p) = (Machine.core d p).plyB.any (fun e => e.1 == id) ∧ t.cores = d.cores))) ∧
    (on 16 → (pstate d p ≠ 7 → Does (.dbgWrite ini p) s (fun t => t = d)) ∧
      (pstate d p = 7 → id < 0x80 → (Machine.core d p).pipe = [] → (Machine.core d p).sync = [] →
        Does (.dbgWrite ini p) s (fun t => t.regs = d.regs ∧ t.mem = d.mem ∧
          (Machine.core t p).port id = BitVec.ofNat 64 (rd64 d (plyDbgDataLo p) (plyDbgDataHi p)) ∧
          ∀ n, n ≠ id → (Machine.core t p).port n = (Machine.core d p).port n)))

/-! ### The twin's messages -/

/-- R393, R394. A message on a link that is down does nothing; a copy of one already received is only acknowledged; a new one
is acknowledged last with the cumulative number: the next in order moves it, and one that comes before a missing one is noted
and leaves it. (The number that a LINK message itself carries is the model's choice, log entry 169, and so is the first number,
log entry 178; that the messages are received by number alone is log entry 72.) -/
def Obligations.TwinMessageOrder : Prop :=
  ∀ (s : State) (c : Instr) (l : W32), awake s.dev = true → msgOf c = some l →
    (s.dev.twin.linkUp = false → Does c s (fun t => t = s.dev)) ∧
    (s.dev.twin.linkUp = true → fresh s.dev l = false →
      Does c s (fun t => t = sendMsg (.link s.dev.twin.rxLseq s.dev.twin.lanes) s.dev)) ∧
    (fresh s.dev l = true → Ends c s (fun t => t.pending = s.pending ∧ t.dev.twin.linkUp = true ∧
      (s.dev.twin.rxAhead = [] → l = s.dev.twin.rxLseq + 1 → t.dev.twin.rxLseq = l ∧ t.dev.twin.rxAhead = []) ∧
      (s.dev.twin.rxAhead = [] → l ≠ s.dev.twin.rxLseq + 1 → t.dev.twin.rxLseq = s.dev.twin.rxLseq ∧ t.dev.twin.rxAhead = [l]) ∧
      ∃ lseq frame lanes, t.dev.out.apdin.head? = some ⟨lseq, false, frame, .link t.dev.twin.rxLseq lanes⟩))

/-- R285, R296, R298, R396, R398, R399. What a new message brings: a forwarded packet is filed for the frames still open and
counted if it came too late for its first, a sense capture is kept; the module that owns numbers a forwarded change, a PTP step
with the offset it measured itself, the others hold a numbered one once; a seal is held, and acknowledged by the partner when it
has every change, be it the last change that comes after the seal; its acknowledgement is noted. (The FRAME of a forwarded
packet is the model's choice, log entry 44.) -/
def Obligations.TwinInputsAndChanges : Prop :=
  ∀ (s : State) (l : W32), fresh s.dev l = true →
    let d := s.dev
    (∀ (n : Fin 128) (net : Fin 2) (frame : Word) (ts : W32) (pl : List Byte),
      let i := rtpIndex d (rd d (rxRtpOffset n)) ts
      let base := i.toNat
      let len := nSamp d * rxFrames d n
      let frameOf (j : Nat) : Nat := (base + j) / nSamp d + rd d (rxDepth n)
      let first := max (frameOf 0) frame.toNat
      let now := d.clk.frame.toNat
      let counted (t : Dev) : Prop := rd t twinFwdLateCount = min (rd d twinFwdLateCount + 1) (2 ^ 32 - 1)
      ((i < 0 ∨ pl.length ≠ rxPayload d n) →
        Does (.inPktRx l n net frame ts pl) s (fun t => counted t ∧ t.strm = d.strm ∧ t.mem = d.mem)) ∧
      (0 ≤ i → pl.length = rxPayload d n → Does (.inPktRx l n net frame ts pl) s (fun t => t.mem = d.mem ∧
        (first < now → counted t) ∧ (now ≤ first → t.regs = d.regs) ∧
        (frameOf (len - 1) < now → t.strm = d.strm) ∧
        (now ≤ frameOf (len - 1) → ∀ j, j < len →
          filedGet t (2 + net.val) n (base + j) = (if max first now ≤ frameOf j then
            ⟨false, (List.range (rxChans d n)).map (fun c => payloadSample (rd d (rxFmt n)) (rxChans d n) pl j c)⟩
            else filedGet d (2 + net.val) n (base + j)))))) ∧
    (∀ (k : Fin 12) (frame : Word) (words : List W32), Does (.inTdmRx l k frame words) s (fun t => t.regs = d.regs ∧
      t.mem = d.mem ∧ tget (fun _ => []) t.strm.fwdTdm k = words ∧ tget (fun _ => none) t.strm.fwdFrame k = some frame)) ∧
    (∀ (op : ChangeOp) (hank : Option HankTag),
      (ownsTdm s.role.state = true → Does (.changeFwdRx l op hank) s (fun t => t.commit.count = d.commit.count + 1 ∧
        t.commit.held = d.commit.held ++ [⟨d.commit.count + 1, (match op with | .ptpStep _ => .ptpStep d.ptp.filt | o => o), hank⟩] ∧
        t.regs = d.regs ∧ t.mem = d.mem)) ∧
      (ownsTdm s.role.state = false → Does (.changeFwdRx l op hank) s (fun t => t.commit = d.commit ∧
        t.regs = d.regs ∧ t.mem = d.mem))) ∧
    (∀ c : Held,
      ((ownsTdm s.role.state = true ∨ ∃ h ∈ d.commit.held, h.num = c.num) →
        Does (.changeRx l c) s (fun t => t.commit = d.commit ∧ t.regs = d.regs ∧ t.mem = d.mem)) ∧
      (ownsTdm s.role.state = false → (∀ h ∈ d.commit.held, h.num ≠ c.num) → Does (.changeRx l c) s (fun t =>
        t.commit.held = d.commit.held ++ [c] ∧ t.commit.count = max d.commit.count c.num ∧
        t.commit.applied = d.commit.applied ∧ t.regs = d.regs ∧ t.mem = d.mem)) ∧
      (∀ f n, s.role.state = .partner → (∀ h ∈ d.commit.held, h.num ≠ c.num) → d.twin.sealHeld = some (f, n) →
        sealComplete d n = false → sealComplete { d with commit := { d.commit with held := d.commit.held ++ [c] } } n = true →
        Does (.changeRx l c) s (fun t => t.out.apdin.tail = ⟨d.twin.txLseq + 1, false, f, .sealAck f⟩ :: d.out.apdin))) ∧
    (∀ (frame : Word) (num : Nat), Does (.sealRx l frame num) s (fun t => t.twin.sealHeld = some (frame, num) ∧
      t.commit = d.commit ∧ t.regs = d.regs ∧ t.mem = d.mem ∧
      t.out.apdin.tail =
        (if s.role.state = .partner ∧ sealComplete d num = true then [⟨d.twin.txLseq + 1, false, frame, .sealAck frame⟩] else []) ++
          d.out.apdin)) ∧
    (∀ frame : Word, Does (.sealAckRx l frame) s (fun t => t.twin.sealAcked = some frame ∧ t.commit = d.commit ∧
      t.regs = d.regs ∧ t.mem = d.mem))

/-- R27, R65, R88, R372, R376, R377, R395, R397, R402 to R406, R411, R412. What the twins compare: input digests and output hashes
of one frame that differ are counted and captured, and the partner becomes QUIET, the owner ALONE; ALONE counts a QUIET twin's
difference, and records one found in the frame of its takeover from a silent peer. The swept words of a pair, the shadow words of
a frame, the bytes of a copy, the sequence records sent to a joiner and its progress are kept; the shadow fills the slots of
refused channels until frame cycle 117,760, but not in ALONE. A peer that asks for a pair's local memory gets it, unless that pair
is itself out of service: then the owner commits a cold restart of both. An owner whose peer is QUIET is ALONE. (The form of a
join image's other parts, of what a module asks for and of its answers, and what a block of moving state completes are the model's
choices, log entries 73, 74 and 113.) -/
def Obligations.TwinAgreement : Prop :=
  ∀ (s : State) (l : W32), fresh s.dev l = true →
    let d := s.dev
    let st := s.role.state
    let countsD (f : Fld) (code : Nat) (t : Dev) : Prop :=
      rd t f = min (rd d f + 1) (2 ^ 32 - 1) ∧ Captured .twin code d t
    let counts (f : Fld) (code : Nat) (t : State) : Prop := countsD f code t.dev
    let boots := d.bist.bootFailed = false
    let tookNow := st = .alone ∧ d.twin.silentAt = some d.clk.frame ∧ d.twin.divergedAt ≠ some d.clk.frame
    (∀ frame digest : Word,
      ((∀ own, d.twin.ownDigest = some (frame, own) → own = digest) ∨ (st ≠ .owner ∧ st ≠ .partner ∧ ¬tookNow) →
        Does (.inDigestRx l frame digest) s (fun t => t.twin.peerDigest = some (frame, digest) ∧ t.regs = d.regs ∧
          t.mem = d.mem)) ∧
      (∀ own, d.twin.ownDigest = some (frame, own) → own ≠ digest →
        (st = .partner → boots → Ends (.inDigestRx l frame digest) s (fun t => Becomes s t .quiet false ∧
          counts twinDigestMismatchCount 0x103 t)) ∧
        (st = .owner → boots → Ends (.inDigestRx l frame digest) s (fun t => TakesOver s t ∧
          counts twinDigestMismatchCount 0x103 t)) ∧
        (tookNow → Does (.inDigestRx l frame digest) s (fun t => countsD twinDigestMismatchCount 0x103 t ∧
          t.twin.divergedAt = some d.clk.frame ∧ bit (rd t (hdrEvtFlag .twin)) 3 = true)))) ∧
    (∀ (frame : Word) (port : Bool) (x : Fin 128) (h : Word),
      let own := tget (fun _ => none) d.twin.ownHash (hashKey port x)
      (frame = workFrame d → Ends (.hashRx l frame port x h) s (fun t =>
        tget (fun _ => none) t.dev.twin.peerHash (hashKey port x) = some h)) ∧
      ((frame ≠ workFrame d ∨ own = none ∨ own = some h) →
        Does (.hashRx l frame port x h) s (fun t => t.regs = d.regs ∧ t.mem = d.mem)) ∧
      (∀ mine, frame = workFrame d → own = some mine → mine ≠ h →
        (st = .partner → boots → Ends (.hashRx l frame port x h) s (fun t => Becomes s t .quiet false ∧
          counts twinHashMismatchCount 0x104 t)) ∧
        (st = .owner → boots → Ends (.hashRx l frame port x h) s (fun t => TakesOver s t ∧ counts twinHashMismatchCount 0x104 t)) ∧
        (tookNow → Does (.hashRx l frame port x h) s (fun t => countsD twinHashMismatchCount 0x104 t ∧
          t.twin.divergedAt = some d.clk.frame ∧ bit (rd t (hdrEvtFlag .twin)) 3 = true)) ∧
        (st = .alone → ¬tookNow → d.twin.peer = .quiet → Does (.hashRx l frame port x h) s (fun t =>
          t.regs = (inc d twinQuietMismatchCount).regs ∧ t.mem = d.mem)))) ∧
    (∀ (frame : Word) (p : Pair) (words : List Word), Does (.sweepRx l frame p words) s (fun t =>
      (∀ i, i < 209 → tget (fun _ => 0) t.twin.sweep (256 * p + i) = nth words i 0) ∧ t.regs = d.regs ∧ t.mem = d.mem ∧
      ((pstate d p ≠ 3 ∨ (ply d p).copied = true) → (ply t p).sweepFrame = some frame) ∧
      (pstate d p = 3 → (ply d p).copied = false → t.ply = d.ply))) ∧
    (∀ (frame : Word) (words : List W32), Does (.shadowRx l frame words) s (fun t => t.regs = d.regs ∧ t.mem = d.mem ∧
      t.twin.shadowFrame = some frame ∧
      (∀ i, i < 192 * nSamp d → tget (fun _ => 0) t.twin.shadow i = nth words i 0) ∧
      ((st = .alone ∨ frame ≠ workFrame d ∨ d.clk.cycle < 109568 ∨ 117760 < d.clk.cycle) → t.strm = d.strm) ∧
      (st ≠ .alone → frame = workFrame d → 109568 ≤ d.clk.cycle → d.clk.cycle ≤ 117760 → ∀ r ∈ d.twin.refused,
        let at_ (y : RefusedOut) : Nat × Nat := (entTdmPort y.entry, entTdmSlot y.entry)
        entTdmValid r.entry = true → (∀ y ∈ d.twin.refused, y ≠ r → at_ y ≠ at_ r) → ∀ j, j < nSamp d →
          tget (fun _ => 0) t.strm.tdmBuf (tdmKey frame.toNat (entTdmPort r.entry) (entTdmSlot r.entry) j) =
            nth words (r.index * nSamp d + j) 0))) ∧
    (∀ (a : Addr) (words : List Word), inRam a.toNat = true →
      (st = .joining → Does (.bulkRx l a (.words words)) s (fun t => Copied d t a.toNat words ∧
        t.twin.joinGot = d.twin.joinGot + 1 ∧ (d.twin.joinTotal ≠ 0 →
          rd t twinJoinProgress = min 100 (100 * (d.twin.joinGot + 1) / d.twin.joinTotal)) ∧
        ∀ x, x ≠ twinJoinProgress.off → rdw t x = rdw d x)) ∧
      (st ≠ .joining → inLocal a.toNat = true → pstate d ((a.toNat - 0x20000000) / 0x01000000) = 3 →
        Does (.bulkRx l a (.words words)) s (fun t => Copied d t a.toNat words ∧ t.regs = d.regs)) ∧
      (st ≠ .joining → (inLocal a.toNat = false ∨ (pstate d ((a.toNat - 0x20000000) / 0x01000000) ≠ 3 ∧ d.cht.moves = [] ∧ d.cht.tail = [])) →
        Does (.bulkRx l a (.words words)) s (fun t => t.mem = d.mem ∧ t.regs = d.regs)) ∧
      (∀ m, st ≠ .joining → inLocal a.toNat = true → d.cht.moves = [m] → m.src = 1 →
        m.to_ = (a.toNat - 0x20000000) / 0x01000000 → pstate d m.to_ ≠ 3 →
        Does (.bulkRx l a (.words words)) s (fun t => Copied d t a.toNat words ∧ t.regs = d.regs ∧ t.cht = d.cht)) ∧
      (∀ m, st ≠ .joining → inLocal a.toNat = true → d.cht.moves = [] → d.cht.tail = [m] → m.src = 1 →
        m.to_ = (a.toNat - 0x20000000) / 0x01000000 → pstate d m.to_ ≠ 3 →
        Does (.bulkRx l a (.words words)) s (fun t => Copied d t a.toNat words ∧ t.regs = d.regs))) ∧
    (∀ (a : Addr) (h : Hue) (last : Word) (cached : Option (List Byte)),
      (st ≠ .joining → Does (.bulkRx l a (.seqRecord h last cached)) s (fun t => t.gw = d.gw ∧ t.regs = d.regs ∧ t.mem = d.mem)) ∧
      (st = .joining → Does (.bulkRx l a (.seqRecord h last cached)) s (fun t =>
        (∀ x, x ≠ twinJoinProgress.off → rdw t x = rdw d x) ∧ t.mem = d.mem ∧ lastSeq t h = last ∧ tget (fun _ => none) t.gw.cached h = cached ∧
        ∀ k : Hue, k ≠ h → lastSeq t k = lastSeq d k))) ∧
    (∀ (a : Addr) (m : Move), st ≠ .joining → d.cht.moves = [m] → m.src = 1 →
      Does (.bulkRx l a (.movedSkein (Fin.ofNat 64 m.skein))) s (fun t => t.regs = d.regs ∧ t.mem = d.mem ∧
        (m.skein < 64 → t.cht.moves = [{ m with done := true }]))) ∧
    (∀ (a : Addr) (p : Pair),
      (∀ f : Word, st ≠ .joining → Does (.bulkRx l a (.completed p f)) s (fun t => (ply t p).twinDone = some f ∧
        t.regs = d.regs ∧ t.mem = d.mem)) ∧
      ((st = .owner ∨ st = .partner) → muted d p = false → Does (.bulkRx l a (.askMemory p true)) s (fun t =>
        t.mem = d.mem ∧ t.regs = d.regs ∧ t.twin.copying.head? = some (p.val, d.mem) ∧
        ∀ i, i < 64 → ∃ lseq n, ⟨lseq, false, n, .bulk (BitVec.ofNat 40 (localBase p + 0x2000 * i)) (.words
          ((List.range 1024).map (fun j => BitVec.ofNat 64 (rdN d (localBase p + 0x2000 * i + 8 * j) 8))))⟩ ∈ t.out.apdin)) ∧
      (st = .owner → muted d p = true → (∀ c ∈ d.commit.held, c.op ≠ .rejoinCold p) →
        Does (.bulkRx l a (.askMemory p true)) s (fun t => t.mem = d.mem ∧ t.regs = d.regs ∧
          t.commit.held = d.commit.held ++ [⟨d.commit.count + 1, .rejoinCold p, none⟩])) ∧
      ((st = .owner ∨ st = .partner) → Does (.bulkRx l a (.askMemory p false)) s (fun t => t.mem = d.mem ∧ t.regs = d.regs ∧
        ∀ e ∈ t.twin.copying, e.1 ≠ p.val))) ∧
    (∀ (a : Addr) (w : Word), inRam a.toNat = true →
      Does (.bulkFwdRx l a w) s (fun t => Copied d t a.toNat [w] ∧ t.regs = d.regs)) ∧
    (∀ (peer : TwinState) (hold silence : Bool),
      ((st ≠ .owner ∨ peer ≠ .quiet) → Does (.stateRx l peer hold silence) s (fun t => t.twin.peer = peer ∧
        t.twin.peerHold = hold ∧ t.regs = d.regs ∧ t.mem = d.mem)) ∧
      (st = .owner → peer = .quiet → boots → Ends (.stateRx l peer hold silence) s (fun t => TakesOver s t ∧
        t.dev.twin.peer = .quiet)))

/-- R300, R390 to R395, R405, R408. Pairing and the link: a HELLO of the other slot from OWNER or ALONE has a module at
start-up join, one of the same slot makes it QUIET; the sample of a heartbeat is noted, and a PARTNER without a grandmaster
follows its ticks; what the peer received is acknowledged and lost lanes are taken out, with an amber record where three are left,
and a message with a wrong CRC is discarded and counted; the link comes up with three lanes or more. (That the numbers of messages
begin again, and that a HELLO is sent as the link comes up, are the model's choices, log entry 178; LINK_RX stands for any message
with a wrong CRC, log entry 72.) -/
def Obligations.TwinPairing : Prop :=
  ∀ (s : State), awake s.dev = true →
    let d := s.dev
    let st := s.role.state
    let up := d.twin.linkUp = true
    let boots := d.bist.bootFailed = false
    let left (n : Nat) : Nat := laneCount (onTwin (fun t => { t with lanes := t.lanes &&& n }) d)
    (d.twin.linkUp = false → ∀ m a n, Does (.linkRx m a n) s (fun t => t = d)) ∧
    (∀ (l : W32) (h : Hello), fresh d l = true →
      Ends (.helloRx l h) s (fun t => t.pending = s.pending ∧ t.dev.twin.peerHello = some h ∧
        rd64 t.dev twinPeerSerialLo twinPeerSerialHi = h.serial.toNat ∧ rd t.dev twinPeerImageId = h.imageId.toNat) ∧
      (st = .startUp → boots → h.slotB = slotB d → Ends (.helloRx l h) s (fun t => Becomes s t .quiet false ∧
        Captured .twin 0x100 d t.dev)) ∧
      (st = .startUp → boots → h.slotB ≠ slotB d → (h.state = .owner ∨ h.state = .alone) →
        Ends (.helloRx l h) s (fun t => Becomes s t .joining false)) ∧
      (((st = .startUp ∧ h.slotB ≠ slotB d ∧ h.state ≠ .owner ∧ h.state ≠ .alone) ∨ st = .partner ∨ st = .quiet) →
        Does (.helloRx l h) s (fun t => t.mem = d.mem ∧ t.commit = d.commit))) ∧
    (∀ (l : W32) (x : Fin 12) (st' : TwinState) (k : Word), fresh d l = true → Does (.beatRx l x st' k) s (fun t =>
      (st = .partner → x.val = 0 → ptpMayFollow d = true → rd t ptpState = 4) ∧
      ((st ≠ .partner ∨ x.val ≠ 0 ∨ ptpMayFollow d = false) → t.regs = d.regs) ∧
      (∀ i, i ∈ t.twin.beats ↔ (i ∈ d.twin.beats ∨ i = x.val)) ∧
      t.twin.peerTick = (if x.val = 0 then k else d.twin.peerTick))) ∧
    (∀ (m : LinkWords) (a : W32) (n : Fin 16), up → linkOk m = false → Does (.linkRx m a n) s (fun t => t.twin = d.twin ∧
      t.out = d.out ∧ t.mem = d.mem ∧ rd t twinCrcErrCount = min (rd d twinCrcErrCount + 1) (2 ^ 32 - 1))) ∧
    (∀ (m : LinkWords) (a : W32) (n : Fin 16), up → linkOk m = true → 3 ≤ left n.val → Does (.linkRx m a n) s (fun t =>
      t.twin.unacked = d.twin.unacked.filter (fun u => decide (0 < (u.sent.lseq - a).toInt)) ∧
      t.twin.lanes = (d.twin.lanes &&& n.val) ∧ t.twin.linkUp = true ∧
      (left n.val = laneCount d → t.regs = d.regs ∧ t.out = d.out) ∧
      (left n.val ≠ laneCount d → bit (rd t (hdrEvtFlag .twin)) 2 = true ∧
        ∃ f, t.out.apdin = ⟨d.twin.txLseq, false, f, .link d.twin.rxLseq (d.twin.lanes &&& n.val)⟩ :: d.out.apdin))) ∧
    (∀ (m : LinkWords) (a : W32) (n : Fin 16), up → linkOk m = true → left n.val < 3 →
      Ends (.linkRx m a n) s (fun t => t.dev.twin.linkUp = false)) ∧
    (∀ n : Fin 5,
      ((up ∨ n.val < 3 ∨ flag d (hdrActive .twin) = false ∨ ¬boots) → Does (.apdinLinkUp n) s (fun t => t = d)) ∧
      (d.twin.linkUp = false → 3 ≤ n.val → flag d (hdrActive .twin) = true → boots → Does (.apdinLinkUp n) s (fun t =>
        t.twin.linkUp = true ∧ laneCount t = n.val ∧ t.twin.rxLseq = 0 ∧ t.twin.rxAhead = [] ∧
        t.out.apdin = ⟨1, false, d.clk.frame, .hello (ownHello st d)⟩ :: d.out.apdin ∧ bit (rd t (hdrEvtFlag .twin)) 2 = true))) ∧
    (∀ lane : Fin 4,
      ((d.twin.linkUp = false ∨ bit d.twin.lanes lane = false) → Does (.apdinLaneLoss lane) s (fun t => t = d)) ∧
      (up → bit d.twin.lanes lane = true → laneCount d = 4 → d.twin.lanes < 16 → Does (.apdinLaneLoss lane) s (fun t =>
        t.twin.linkUp = true ∧ laneCount t = 3 ∧ bit t.twin.lanes lane = false ∧
        bit (rd t (hdrEvtFlag .twin)) 2 = true)) ∧
      (up → bit d.twin.lanes lane = true → laneCount d ≤ 3 → Ends (.apdinLaneLoss lane) s (fun t =>
        t.dev.twin.linkUp = false)))

/-- R387, R390, R391, R394, R405, R408, R410, R411, R414. The heartbeat test in the middle of a sample: a wired module that misses the line and
the link path finds its peer silent, and PARTNER, OWNER and QUIET without hold take over; one path missed alone is
counted, and its spell reported once; an unwired module only looks. What the twin's timeouts do: a silent link goes
down, and OWNER and PARTNER decide by the peer's line where it is wired and else begin to watch; the oldest message
goes out again until it was sent three times; the frames watched decide for the owner, and for a partner by what it
saw of the peer, and for a module at start-up by the peer's ownership line or its packets; the watchdog and a join that takes
30 s end in QUIET. A module whose images were both invalid changes no state. (That the split-brain rules decide only while the
link is down is read by inference, log entry 71; how a broken ownership line is found, and that an abdication and a test of one
sample count as one instant, are the model's choices, log entries 171 and 172.) -/
def Obligations.TwinTimeouts : Prop :=
  (∀ (s : State) (x : PeerLines), awake s.dev = true →
    let d := s.dev
    let wired := flag d twinTwinCfgWired
    let line := x.beat == d.twin.peerLine
    let link := !d.twin.beats.contains d.clk.sample
    let bad := d.twin.linkUp && !line && x.own != ownsTdm d.twin.peer
    let broken := bad && d.twin.ownMiss == 1
    let looked (t : Dev) : Prop := t.twin.peerLine = x.beat ∧ t.twin.peerToggled = !line ∧ t.twin.peerOwnLow = (wired && x.own) ∧
      (∀ i, i ∈ t.twin.beats ↔ (i ∈ d.twin.beats ∧ i = (d.clk.sample + 1) % nSamp d)) ∧
      t.clk = { d.clk with cycle := sampCycles d * d.clk.sample + sampCycles d / 2 } ∧ t.mem = d.mem
    (wired = false → Does (.heartbeatTest x) s (fun t => looked t ∧ t.regs = d.regs ∧
      t.twin.peerSilent = d.twin.peerSilent)) ∧
    (wired = true → line = false → link = false → Does (.heartbeatTest x) s (fun t => looked t ∧
      t.twin.ownMiss = (if bad then min 2 (d.twin.ownMiss + 1) else 0) ∧ (broken = false → t.regs = d.regs) ∧
      (broken = true → bit (rd t (hdrEvtFlag .twin)) 4 = true) ∧
      t.twin.peerSilent = false ∧ t.twin.lineSpell = false ∧ t.twin.linkSpell = false)) ∧
    (wired = true → line ≠ link → Does (.heartbeatTest x) s (fun t => looked t ∧ t.twin.peerSilent = false ∧
      t.twin.lineSpell = line ∧ t.twin.linkSpell = link ∧
      rd t twinBeatMissCount = min (rd d twinBeatMissCount + 1) (2 ^ 32 - 1) ∧
      bit (rd t (hdrEvtFlag .twin)) 4 = (bit (rd d (hdrEvtFlag .twin)) 4 || broken || (line && !d.twin.lineSpell) ||
        (link && !d.twin.linkSpell)))) ∧
    (wired = true → line = true → link = true →
      let takes := s.role.state = .partner ∨ s.role.state = .owner ∨ (s.role.state = .quiet ∧ s.role.hold = false ∧
        d.twin.abdicatedAt ≠ some (d.clk.frame, d.clk.sample))
      (takes → d.bist.bootFailed = false → Ends (.heartbeatTest x) s (fun t => TakesOver s t ∧
        t.dev.twin.peerSilent = true ∧ t.dev.twin.silentAt = some d.clk.frame)) ∧
      (¬takes → Does (.heartbeatTest x) s (fun t => looked t ∧ t.twin.peerSilent = true ∧
        (d.twin.peerSilent = false → bit (rd t (hdrEvtFlag .twin)) 1 = true))))) ∧
  (∀ (s : State), awake s.dev = true →
    let d := s.dev
    let st := s.role.state
    let wired := flag d twinTwinCfgWired
    let up := d.twin.linkUp = true
    let boots := d.bist.bootFailed = false
    (¬boots → st = .startUp → Does .splitBrainTimeout s (fun t => t = d)) ∧
    (d.twin.linkUp = false → Does .apdinRxSilence s (fun t => t = d) ∧ Does .apdinRetxTimeout s (fun t => t = d)) ∧
    (up → Ends .apdinRxSilence s (fun t => t.dev.twin.linkUp = false ∧ t.dev.twin.lanes = 0 ∧ t.dev.twin.unacked = [] ∧
      bit (rd t.dev (hdrEvtFlag .twin)) 2 = true ∧ (st ≠ .joining → Captured .twin 0x105 d t.dev))) ∧
    (up → ((st = .owner ∧ wired = true ∧ d.twin.peerToggled = true) ∨ st = .alone ∨ st = .quiet) →
      Does .apdinRxSilence s (fun t => t.twin.split = d.twin.split)) ∧
    (up → ((st = .owner ∧ wired = false) ∨ (st = .partner ∧ wired = false) ∨ st = .startUp) →
      Does .apdinRxSilence s (fun t => t.twin.split = some 0 ∧ t.twin.witness = false)) ∧
    (up → boots → wired = true → d.twin.peerToggled = false → (st = .owner ∨ st = .partner) →
      Ends .apdinRxSilence s (TakesOver s)) ∧
    (up → boots → ((st = .partner ∧ wired = true ∧ d.twin.peerToggled = true) ∨ st = .joining) →
      Ends .apdinRxSilence s (fun t => Becomes s t .quiet false)) ∧
    (d.twin.unacked = [] → Does .apdinRetxTimeout s (fun t => t = d)) ∧
    (∀ u r, up → d.twin.unacked = u :: r →
      (u.sends < 3 → Does .apdinRetxTimeout s (fun t =>
        t.twin.unacked = r ++ [⟨{ u.sent with retx := true }, u.sends + 1⟩] ∧
        t.out.apdin = { u.sent with retx := true } :: d.out.apdin ∧ t.regs = (inc d twinRetxCount).regs)) ∧
      (3 ≤ u.sends → Ends .apdinRetxTimeout s (fun t => t.dev.twin.linkUp = false))) ∧
    ((d.twin.split = none ∨ wired = true) → Does .witnessPacketRx s (fun t => t = d)) ∧
    (d.twin.split ≠ none → wired = false →
      ((st = .partner ∨ st = .startUp) → boots → Ends .witnessPacketRx s (fun t => Becomes s t .quiet false)) ∧
      (st ≠ .partner → st ≠ .startUp → Does .witnessPacketRx s (fun t => t.twin.witness = true ∧ t.regs = d.regs))) ∧
    (d.twin.split = none → Does .splitBrainTimeout s (fun t => t = d)) ∧
    (∀ n, d.twin.split = some n →
      ((up ∨ n < splitFrames st wired (slotB d) ∨ (st ≠ .owner ∧ st ≠ .partner ∧ st ≠ .startUp)) →
        Does .splitBrainTimeout s (fun t => t = d)) ∧
      (d.twin.linkUp = false → splitFrames st wired (slotB d) ≤ n →
        (boots → (st = .owner ∨ (st = .partner ∧ d.twin.witness = false)) → Ends .splitBrainTimeout s (TakesOver s)) ∧
        (boots → st = .partner → d.twin.witness = true → Ends .splitBrainTimeout s (fun t => Becomes s t .quiet false)) ∧
        (boots → st = .startUp →
          let seen := if wired then d.twin.peerOwnLow else d.twin.witness
          (seen = true → Ends .splitBrainTimeout s (fun t => Becomes s t .quiet false)) ∧
          (seen = false → Ends .splitBrainTimeout s (fun t => Becomes s t .alone false))))) ∧
    (∀ ini, accepted s ini twinWdogKick.off 1 = true → Does (.wdogKick ini) s (fun t => t.twin.wdog = 0 ∧
      t.regs = d.regs ∧ t.mem = d.mem)) ∧
    ((rd d twinWdogFrames = 0 ∨ d.twin.wdog < rd d twinWdogFrames) → Does .watchdogExpire s (fun t => t = d)) ∧
    (rd d twinWdogFrames ≠ 0 → rd d twinWdogFrames ≤ d.twin.wdog → st ≠ .quiet → boots →
      Ends .watchdogExpire s (fun t => Becomes s t .quiet false ∧ t.dev.twin.wdog = 0 ∧
        t.dev.twin.abdicatedAt = some (d.clk.frame, d.clk.sample))) ∧
    ((st ≠ .joining ∨ d.twin.joinAge < 240000) → Does .joinTimeout s (fun t => t = d)) ∧
    (st = .joining → 240000 ≤ d.twin.joinAge → boots →
      Ends .joinTimeout s (fun t => Becomes s t .quiet false ∧ Captured .twin 0x106 d t.dev)))

/-! ### Power, self-test and storage -/

/-- R413 to R417, R420. Start-up: the boot ROM checks both images once and boots one or none; the time runs until the first frame
is sent; the quick test's signatures give every index tested its result, a failing block is disabled, a failing pair is
quarantined, and CP0 starts. (The time counted from is the model's choice, log entry 175.) -/
def Obligations.StartUp : Prop :=
  ∀ s : State,
    let d := s.dev
    (∀ ms, d.bist.booted = true → Does (.powerGood ms) s (fun t => t = d)) ∧
    (∀ ms, d.bist.booted = false →
      let va := imageValid d false
      let vb := imageValid d true
      Does (.powerGood ms) s (fun t => t.bist.powered = true ∧ t.bist.booted = true ∧ flag t storValidA = va ∧
        flag t storValidB = vb ∧ flag t storBootTryEn = false ∧
        (imageChoice d va vb = none → t.bist.bootFailed = true ∧ t.mem = d.mem) ∧
        (∀ b, imageChoice d va vb = some b → flag t storBootedB = b ∧ rd t storImageId = imgWord d b 8 ∧
          t.bist.starting = some (8 * ms.toNat)))) ∧
    (awake d = true →
      (d.bist.tried = 0 → ∀ sigs, Does (.quickTestEnd sigs) s (fun t => t = d)) ∧
      (d.bist.tried ≠ 0 → ∀ sigs, Does (.quickTestEnd sigs) s (fun t => t.bist.tried = 0 ∧
        flag t (hdrEn (.ply 0)) = true ∧ flag t (hdrActive (.ply 0)) = true ∧
        ∀ i, i < 42 →
          (bit d.bist.tried i = true → let r := judge d.bist.quick i (nth sigs i 0)
            rd t (bistResult i) = r ∧ flag t (bistQuick i) = true ∧
            rd64 t (bistSigLo i) (bistSigHi i) = (nth sigs i 0).toNat ∧ bit (dueMask t) i = true ∧
            (i < 12 → r = 2 → pstate t i = 5) ∧ (∀ b, 12 ≤ i → r = 2 → bistBlk i = some b → flag t (hdrEn b) = false)) ∧
          (bit d.bist.tried i = false → rd t (bistResult i) = rd d (bistResult i) ∧
            bit (dueMask t) i = bit (dueMask d) i))))

/-- R17, R68, R391, R428, R439. The supply and a reset of the module: one input lost is shown and no more while the other holds; both
lost, or an overtemperature, begin the hold-up, which counts, ends every test and persists the log; it ends in a reset when an input is
back, and else in a module without power. A reset leaves read-only memory, the keys and the straps, and every other register
at its reset value. (What RAM holds after a reset, and that the log area is kept by record number, are the model's choices, log
entries 84 and 92.) -/
def Obligations.SupplyAndReset : Prop :=
  ∀ s : State,
    let d := s.dev
    let ok (b : Bool) : Fld := if b then bistPstatusPwrBOk else bistPstatusPwrAOk
    let holds (t : Dev) : Prop := pmode t = 6 ∧ rd t bistHoldupCount = min (rd d bistHoldupCount + 1) (2 ^ 32 - 1) ∧
      t.bist.testing = [] ∧ t.bist.heldFrom = pmode d ∧ flag t bistPstatusBusy = false ∧ t.twin.dying = true ∧ t.stor.logPend = [] ∧ t.mem = d.mem ∧
      bit (rd t (hdrEvtFlag .bist)) 2 = true
    (∀ b, (flag d (ok b) = false → Does (.supplyInputLoss b) s (fun t => t = d)) ∧
      (flag d (ok b) = true → flag d (ok !b) = true → Does (.supplyInputLoss b) s (fun t => flag t (ok b) = false ∧
        pmode t = pmode d ∧ flag t (ok !b) = true ∧ t.mem = d.mem ∧ t.cores = d.cores)) ∧
      (flag d (ok b) = true → flag d (ok !b) = false →
        (pmode d ≠ 6 → Does (.supplyInputLoss b) s (fun t => holds t ∧ flag t (ok b) = false ∧ flag t (ok !b) = false)) ∧
        (pmode d = 6 → Does (.supplyInputLoss b) s (fun t => t = wr d (ok b) 0)))) ∧
    (pmode d ≠ 6 → Does .supplyBothLost s (fun t => holds t ∧ flag t (ok false) = false ∧ flag t (ok true) = false) ∧
      Does .overtempTrip s holds ∧ (∀ b, Does (.supplyRecovery b) s (fun t => t = wr d (ok b) 1)) ∧
      Ends .holdupEnd s (fun t => t = s)) ∧
    (pmode d = 6 → Does .supplyBothLost s (fun t => t = wr (wr d (ok false) 0) (ok true) 0) ∧
      Does .overtempTrip s (fun t => t = d) ∧
      (∀ b, Ends (.supplyRecovery b) s (fun t => t.role.state = .startUp ∧ pmode t.dev = 0 ∧ flag t.dev (ok b) = true ∧
        flag t.dev (ok !b) = flag d (ok !b) ∧ t.dev.bist.booted = false ∧ t.dev.gw.keys = d.gw.keys)) ∧
      Ends .holdupEnd s (fun t => t.role.state = .startUp ∧ t.dev.bist.powered = false ∧ t.dev.gw = Gw.reset)) ∧
    (∀ b, Ends (.moduleReset b) s (fun t => t.pending = s.pending ∧ t.role.state = .startUp ∧ t.role.ownLow = false ∧
      t.role.beating = false ∧ t.role.hold = false ∧ flag t.dev modSlotB = b ∧ t.dev.gw.keys = d.gw.keys ∧
      t.dev.stor.items = d.stor.items ∧ t.dev.stor.logArea = d.stor.logArea ∧ t.dev.cores = [] ∧ t.dev.clk.frame = 0 ∧
      (∀ a, inRom a = true → rdB t.dev a = rdB d a) ∧ (∀ a, inRom a = false → rdB t.dev a = memReset a) ∧
      ∀ x, x ∉ [0x04, 0x40, 0x44, 0x200044, 0x200048, 0x208044, 0x208048, 0x410048, 0x520040] → rdw t.dev x = regReset x))

/-- R415, R418, R421, R423 to R427, R431. A full test starts where its conditions hold and is captured where not; its end shows
the result, keeps the index due or not, and captures a failure or a missing row. In a planned shut-down the groups follow each
other and the last leaves the module off-ready, with its record in NOR; standby gates its blocks once they are quiet, and with
them CP1 to CP11, which lose what they hold, and a wake restores the blocks and starts every pair in service cold. (That the
registers of the pairs' pages stay is read by inference, log entry 176; the bytes of the retention area are free, log entry 91.) -/
def Obligations.SelfTestAndStandby : Prop :=
  ∀ s : State, awake s.dev = true →
    let d := s.dev
    let sel := if rd d bistRunSel < 42 then rd d bistRunSel else 0
    (∀ ini, accepted s ini bistRun.off 8 = true →
      (flag d bistPstatusBusy = true → Does (.run ini) s (fun t => t = d)) ∧
      (flag d bistPstatusBusy = false →
        (runOk s.role.state d sel = true → Does (.run ini) s (fun t => t.bist.testing = d.bist.testing ++ [sel] ∧
          flag t bistPstatusBusy = true ∧ t.mem = d.mem)) ∧
        (runOk s.role.state d sel = false → Does (.run ini) s (fun t => Captured .bist 0x101 d t ∧ t.bist = d.bist)))) ∧
    (∀ (i : Fin 42) (sig : Word),
      (i.val ∉ d.bist.testing → Does (.bistTestEnd i sig) s (fun t => t = d)) ∧
      (i.val ∈ d.bist.testing → let r := judge d.bist.golden i sig
        Does (.bistTestEnd i sig) s (fun t => t.bist.testing = d.bist.testing.erase i ∧ rd t (bistResult i) = r ∧
          flag t (bistQuick i) = false ∧ rd64 t (bistSigLo i) (bistSigHi i) = sig.toNat ∧
          bit (dueMask t) i = (if r = 1 then false else if r = 3 then true else bit (dueMask d) i) ∧
          (r = 2 → Captured .bist 0x103 d t) ∧ (r = 3 → Captured .bist 0x102 d t)))) ∧
    ((pmode d ≠ 1 ∨ d.bist.testing ≠ []) → Does .shutdownGroupEnd s (fun t => t = d)) ∧
    (pmode d = 1 → d.bist.testing = [] → (d.bist.group ≠ 0 ∨ ∀ b ∈ allBlks, flag d (hdrQuiescing b) = false) →
      (d.bist.group < 5 → Does .shutdownGroupEnd s (fun t => t.bist.group = d.bist.group + 1 ∧
        t.bist.testing = groupOf (d.bist.group + 1) ∧ pmode t = 1 ∧ t.mem = d.mem)) ∧
      (5 ≤ d.bist.group → Does .shutdownGroupEnd s (fun t => pmode t = 2 ∧
        (recLast d = none → (∀ i, i < 64 → rdB d (recSlot 0 + i) = 0xFF) → recOk t 0 = true ∧
          rdN t (recSlot 0) 4 = 0x53445354 ∧ rdN t (recSlot 0 + 0x10) 8 = d.bist.shutFrame.toNat ∧
          rdN t (recSlot 0 + 0x18) 4 = rd d storImageId ∧ rdN t (recSlot 0 + 0x20) 8 = d.bist.pass % 2 ^ 64 ∧
          ∀ a, (a < recSlot 0 ∨ recSlot 0 + 64 ≤ a) → rdB t a = rdB d a)))) ∧
    ((pmode d ≠ 3 ∨ ∃ b ∈ gatedBlks, flag d (hdrQuiescing b) = true) → Does .standbyEntryComplete s (fun t => t = d)) ∧
    (pmode d = 3 → (∀ b ∈ gatedBlks, flag d (hdrQuiescing b) = false) → Does .standbyEntryComplete s (fun t =>
      pmode t = (if d.bist.wakeHeld then 5 else 4) ∧ t.bist.saved = some (d.regs.filter (fun e => gatedReg e.1)) ∧
      (∀ b ∈ gatedBlks, ∀ x, blkAt x = some b → keepOnReset b x = 0 → rdw t x = regReset x) ∧
      ∀ q : Pair, q.val ≠ 0 → Machine.core t q = Core.reset ∧ ∀ a, localBase q ≤ a → a < localBase q + 0x80000 → rdB t a = 0)) ∧
    (pmode d ≠ 5 → Does .wakeRestore s (fun t => t = d)) ∧
    (pmode d = 5 → Does .wakeRestore s (fun t => pmode t = 0 ∧ t.bist.saved = none ∧
      bit (rd t (hdrEvtFlag .bist)) 3 = true ∧
      ((∀ e ∈ d.bist.saved.getD [], gatedReg e.1 = true) → (∀ x ∈ d.bist.savedChans, x.1 < 128) →
        d.bist.bootFailed = false → ∀ p : Pair, flag d (hdrEn (.ply p)) = true → pstate d p ≠ 5 → pstate t p = 4)))

/-- R428 to R430, R433. The storage block: a command starts, or is refused with its reason; its end has the effect of its
operation on NOR, items or the log, or is captured as failed; records are copied to the log area one by one. (That programming
takes bits from 1 to 0 only is presumed, log entry 41; the keys of the log area, what a reserved operation gets and which bytes
an erase takes are the model's choices, log entries 92 and 93.) -/
def Obligations.Storage : Prop :=
  ∀ s : State, awake s.dev = true →
    let d := s.dev
    (d.stor.logPend = [] → Does .logPersistCopy s (fun t => t = d)) ∧
    (∀ x r, d.stor.logPend = x :: r → Does .logPersistCopy s (fun t => t.stor.logPend = r ∧ t.regs = d.regs ∧
      t.mem = d.mem ∧ ∀ k, tget (fun _ => none) t.stor.logArea k =
        if k = x.1 then some x.2 else tget (fun _ => none) d.stor.logArea k)) ∧
    (∀ (ini : Initiator) (c : Instr) (n : Nat),
      ((c = .norErase ini ∧ n = 1) ∨ (c = .norProgram ini ∧ n = 2) ∨ (c = .itemWrite ini ∧ n = 3) ∨
        (c = .itemDelete ini ∧ n = 4) ∨ (c = .logFlush ini ∧ n = 5)) →
      accepted s ini storCmdOp.off (putBit (putBits (rdw d storCmdOp.off).toNat 2 0 n) 31 true) = true →
      let o : StorOp := ⟨n, rd64 d storArgAddrLo storArgAddrHi, rd d storArgTarget, rd d storArgLen⟩
      (flag d storCmdStatusBusy = true → Does c s (fun t => t.stor = d.stor ∧ t.mem = d.mem ∧
        flag t storCmdStatusBusy = true)) ∧
      (flag d storCmdStatusBusy = false → Does c s (fun t => t.mem = d.mem ∧ rd t storCmdOp = n ∧
        rd t storCmdStatusReason = storReason d o ∧ flag t storCmdStatusDone = false ∧
        flag t storCmdStatusFailed = decide (storReason d o ≠ 0) ∧ flag t storCmdStatusBusy = decide (storReason d o = 0) ∧
        t.stor = if storReason d o = 0 then { d.stor with op := some o } else d.stor))) ∧
    (∀ ok, d.stor.op = none → Does (.storCmdDone ok) s (fun t => t = d)) ∧
    (∀ o : StorOp, d.stor.op = some o →
      let a := (norTarget o).2
      Does (.storCmdDone false) s (fun t => t.stor.op = none ∧ t.stor.items = d.stor.items ∧ t.mem = d.mem ∧
        flag t storCmdStatusBusy = false ∧ flag t storCmdStatusFailed = true ∧ Captured .stor 0x100 d t) ∧
      Does (.storCmdDone true) s (fun t => t.stor.op = none ∧ flag t storCmdStatusBusy = false ∧
        flag t storCmdStatusDone = true ∧ bit (rd t (hdrEvtFlag .stor)) 0 = true ∧
        (o.op = 1 → (∀ x, a ≤ x → x < a + o.len → rdB t x = memReset x) ∧
          ∀ x, (x < a ∨ a + o.len ≤ x) → rdB t x = rdB d x) ∧
        (o.op = 2 → (∀ i, i < o.len → rdB t (a + i) = rdB d (o.addr + i) &&& rdB d (a + i)) ∧
          ∀ x, (x < a ∨ a + o.len ≤ x) → rdB t x = rdB d x) ∧
        (o.op = 3 → t.mem = d.mem ∧ ∀ k, tget (fun _ => none) t.stor.items k =
          if k = o.target then some (rdBytes d o.addr o.len) else tget (fun _ => none) d.stor.items k) ∧
        (o.op = 4 → t.mem = d.mem ∧ ∀ k, tget (fun _ => none) t.stor.items k =
          if k = o.target then none else tget (fun _ => none) d.stor.items k) ∧
        (o.op = 5 → t.mem = d.mem ∧ t.stor.items = d.stor.items ∧ t.stor.logPend = [])))

/-! ### Contacts, serial ports, relays -/

/-- R447, R448, R450 to R455. A reading, 0xFFFF above 20 kΩ, is kept and classified, under the thresholds that its millisecond
began with, and after its debounce settles the state, with CHANGED where it is a new one. A character joins the open entry with
its errors, the fourteenth or two idle characters close it, into RX_Q or dropped and counted; a port whose block was disabled
finishes the character in progress; an entry of TX_Q leaves as its characters, with parity and stop bits and the driver on around
them. The relay drivers follow OUT while EN is set and no trip holds, a trip ends at a 0 in OUT; a mismatch is shown. (What a ring
of another ESIZE gets, when MEASURED is set, what READBACK shows between its tests, the millisecond and the port's last character
are the model's choices or inferences, log entries 43, 98, 99, 166 and 167.) -/
def Obligations.ContactsAndRelays : Prop :=
  ∀ s : State, awake s.dev = true →
    let d := s.dev
    let one (f : Fld) (t : Dev) : Prop := rd t f = min (rd d f + 1) (2 ^ 32 - 1)
    (∀ (n : Fin 32) (ohms : BitVec 16),
      let read := if 20000 < ohms.toNat then 0xFFFF else ohms.toNat
      let cls := contClass (contThresholds d) read
      let c := tget (fun _ => Contact.reset) d.cont.inputs n
      let run := if c.run ≠ 0 ∧ c.cls = cls then min (c.run + 1) 15 else 1
      ((contRunning d = false ∨ bit (rd d contEnable) n = false) → Does (.contactReading n ohms) s (fun t => t = d)) ∧
      (contRunning d = true → bit (rd d contEnable) n = true → Does (.contactReading n ohms) s (fun t =>
        t.mem = d.mem ∧ rd t (contOhms n) = read ∧ tget (fun _ => Contact.reset) t.cont.inputs n = ⟨cls, run⟩ ∧
        (run < contDebounceN d → rd t (contState n) = rd d (contState n) ∧
          rd t (contMeasured n) = rd d (contMeasured n) ∧ rd t contChanged = rd d contChanged) ∧
        (contDebounceN d ≤ run → rd t (contState n) = cls ∧ flag t (contMeasured n) = true ∧
          (rd d (contState n) ≠ cls → bit (rd t contChanged) n = true ∧ bit (rd t (hdrEvtFlag .cont)) 0 = true) ∧
          (rd d (contState n) = cls → rd t contChanged = rd d contChanged))))) ∧
    (∀ (ini : Initiator) (a : Addr) (v : W32) (f : Fld), f ∈ [contThreshShort, contThreshActive, contThreshOpen] →
      a.toNat = 0x40000000 + f.off → accepted s ini f.off v.toNat = true →
      Does (.registerWrite ini a (.word (v.setWidth 64)) 4) s (fun t => contThresholds t = contThresholds d)) ∧
    (∀ (p : Fin 2) (ch : Byte) (par frm brk : Bool),
      let x := serialPort d p
      let bad := par && (rd d (contParity p) == 1 || rd d (contParity p) == 2)
      let after : Serial := ⟨x.rx ++ [ch], (x.flags ||| b2n bad) ||| (2 * b2n frm) ||| (4 * b2n brk)⟩
      let takes := flag d (contPortEn p) = true ∧
        (contRunning d = true ∨ (flag d (hdrQuiescing .cont) = true ∧ p.val ∉ d.cont.finished))
      (¬takes → Does (.rs485CharRx p ch par frm brk) s (fun t => t = d)) ∧
      (takes → Does (.rs485CharRx p ch par frm brk) s (fun t => (contRunning d = false → p.val ∈ t.cont.finished) ∧
        rd t (contErrFrames p) = min (rd d (contErrFrames p) + b2n (bad || frm)) (2 ^ 32 - 1) ∧
        serialPort t p = (if x.rx.length < 13 then after else Serial.reset) ∧ (x.rx.length < 13 → t.mem = d.mem)))) ∧
    (∀ p : Fin 2,
      let x := serialPort d p
      let q := rd d (contRxQ p)
      let tq := rd d (contTxQ p)
      (x.rx = [] → Does (.rs485IdleClose p) s (fun t => t = d)) ∧
      (x.rx ≠ [] → Does (.rs485IdleClose p) s (fun t => serialPort t p = Serial.reset ∧
        (flag d (contRxValid p) = false → t.mem = d.mem ∧ t.regs = d.regs) ∧
        (flag d (contRxValid p) = true → (rdCtx d q).esize ≠ 0 → t.mem = d.mem ∧ one (contRxDrop p) t) ∧
        (flag d (contRxValid p) = true → ringSound d q 16 = true → occ (rdCtx d q) < ringSize (rdCtx d q) →
          Enqueued d t q (serialEntry x) ∧ bit (rd t (hdrEvtFlag .cont)) 1 = true ∧
          rd t (contRxDrop p) = rd d (contRxDrop p)) ∧
        (flag d (contRxValid p) = true → ringSound d q 16 = true → occ (rdCtx d q) = ringSize (rdCtx d q) →
          one (contRxDrop p) t))) ∧
      ((contRunning d = false ∨ flag d (contPortEn p) = false ∨ flag d (contTxValid p) = false ∨ (rdCtx d tq).esize ≠ 0) →
        Does (.rs485TxEntry p) s (fun t => t = d)) ∧
      (contRunning d = true → flag d (contPortEn p) = true → flag d (contTxValid p) = true → ringSound d tq 16 = true →
        (occ (rdCtx d tq) = 0 → Does (.rs485TxEntry p) s (fun t => t.out = d.out ∧ t.mem = d.mem)) ∧
        (0 < occ (rdCtx d tq) → Does (.rs485TxEntry p) s (fun t =>
          let c := rdCtx d tq
          let e := rdBytes d (entryAddr c c.head) 16
          let sent (b : Byte) : SerialOut := .char p.val b (parityBit (rd d (contParity p)) b) (1 + rd d (contStop2 p))
            (if rd d (contDiv p) = 0 then 1600 else rd d (contDiv p))
          t.out.serial = .driverOff p.val :: ((((e.drop 2).take (min 14 (nth e 0 0).toNat)).map sent).reverse ++
            .driverOn p.val :: d.out.serial) ∧
          rdCtx t tq = { c with head := (c.head + 1) % (2 * ringSize c), rsv := false })))) ∧
    (∀ (ini : Initiator) (v : BitVec 16), accepted s ini relOut.off v.toNat = true → Does (.relOutWrite ini v) s (fun t =>
      rd t relOut = v.toNat ∧ t.mem = d.mem ∧ ∀ i, i < 16 →
        bit t.cont.tripped i = (bit d.cont.tripped i && bit v.toNat i) ∧
        bit t.cont.relOn i = (flag d (hdrEn .rel) && bit v.toNat i && !bit d.cont.tripped i) ∧
        bit (rd t relReadback) i = bit t.cont.relOn i)) ∧
    (∀ n : Fin 16,
      (bit d.cont.relOn n = false → Does (.relOvercurrent n) s (fun t => t = d)) ∧
      (bit d.cont.relOn n = true → Does (.relOvercurrent n) s (fun t => bit (rd t relOc) n = true ∧
        bit t.cont.tripped n = true ∧ (rd d relOc = 0 → bit (rd t (hdrEvtFlag .rel)) 0 = true) ∧ rd t relOut = rd d relOut ∧
        ∀ i, i < 16 → bit t.cont.relOn i =
          (flag d (hdrEn .rel) && bit (rd d relOut) i && !bit d.cont.tripped i && decide (i ≠ n.val)))) ∧
      Does (.relMismatch n) s (fun t => bit (rd t relMismatch) n = true ∧ t.cont = d.cont ∧ rd t relOut = rd d relOut ∧
        bit (rd t relReadback) n = !bit (rd d relOut) n ∧ (rd d relMismatch = 0 → bit (rd t (hdrEvtFlag .rel)) 1 = true)))

/-! ### The frame timeline -/

/-- R24, R29, R53, R83, R91, R302, R381, R391, R398, R405, R411, R424, R425, R427, R458. The tick begins the next frame period,
whatever the state, and is the commit point of the frame before: the changes it takes (an owner's up to its acknowledged seal, a
partner's up to the seal it holds whole, every other module's all) take effect by kind in the order of R458 and by number within a
kind, and the largest number counts as applied. An owner without a seal, and a partner that holds none, take the link down, and the
partner withholds the frame. What the changes of the twin and of power do: a pair's reset, SHUTDOWN, STANDBY and WAKE, QUIET,
RELEASE_HOLD, JOIN, the join frame. A time step committed a frame before moves the frame number; an armed switch comes into
force at its frame, or is postponed where an old pair overran; two modules at start-up that fit become OWNER and PARTNER by their
slots; a module that loses its supply abdicates. (A muted pair postpones no switch: the model's choice, log entry 125. A step is
applied at the tick after its commit point: read by inference, log entry 168.) -/
def Obligations.FrameTick : Prop :=
  ∀ s : State, awake s.dev = true →
    let d := s.dev
    let st := s.role.state
    let now := d.clk.frame
    let b := tickBegin (s.role, d)
    let x := commitPoint st now b
    let c := x.2
    let y := tickEnd d.ptp.steps x
    let rank (o : ChangeOp) : Nat :=
      match o with
      | .hueReset _ => 1
      | .ctxWrite _ _ _ => 2
      | .dbEnq h _ _ _ | .dbConsume h _ _ _ => 3 + h.val
      | .staging _ _ _ | .inval _ | .invalAll => 19
      | .arm _ _ _ _ | .cancel _ _ => 20
      | _ => 21
    let quiet (slot : Bool) : Prop := ∃ h ∈ d.commit.held, ∃ hold, h.op = .twinQuiet slot hold
    let batch (take : Held → Bool) (last : Nat) : Prop :=
      ∃ (l : List Held) (z : RD) (g : Gw), l.Perm (d.commit.held.filter take) ∧
        (¬(quiet false ∧ quiet true) →
          l.Pairwise (fun h k => rank h.op < rank k.op ∨ (rank h.op = rank k.op ∧ h.num ≤ k.num))) ∧
        z = l.foldl (fun w h => applyChange ⟨l.map Held.op, d.cht.armed.isNone, flag d tagPassActive, now⟩ h.op w)
          (b.1, onTwin (fun t => { t with sealApplied := last })
            { b.2 with commit := { b.2.commit with held := d.commit.held.filter (fun h => !take h) } }) ∧
        x.1 = z.1 ∧
        c = { z.2 with gw := g, commit := { z.2.commit with applied := l.foldl (fun m h => max m h.num) z.2.commit.applied } }
    let boots := d.bist.bootFailed = false
    let calm := d.twin.dying = false
    let only (op : ChangeOp) : Prop := ∃ n, d.commit.held = [⟨n, op, none⟩]
    let sealed (op : ChangeOp) : Prop := ∃ n k, d.commit.held = [⟨n, op, none⟩] ∧ n ≤ k ∧
      ((st = .owner ∧ d.twin.sealed = some (now, k) ∧ d.twin.sealAcked = some now) ∨
        (st = .partner ∧ d.twin.sealHeld = some (now, k) ∧ sealComplete d k = true))
    let still := st = .alone ∧ calm ∧ d.twin.stopping = false ∧ d.twin.sent = none ∧ d.commit.held = [] ∧ d.ptp.steps = [] ∧
      flag d (hdrQuiescing .cht) = false
    exec .frameTick s = .next { s with role := y.1, dev := y.2 } ∧
    c.clk = ⟨now + 1, 0, 0⟩ ∧ y.2.clk.cycle = 0 ∧ y.2.clk.sample = 0 ∧
    (d.ptp.steps = [] → y.2.clk.frame = now + 1) ∧
    (∀ o, d.ptp.steps = [o] → y.2.clk.frame =
      BitVec.ofInt 64 ((((now + 1).toNat * 125000 : Nat) - o : Int).fdiv 125000)) ∧
    (st ≠ .owner → st ≠ .partner → batch (fun _ => true) d.commit.count) ∧
    (∀ k, st = .owner → d.twin.sealed = some (now, k) → d.twin.sealAcked = some now →
      batch (fun h => decide (h.num ≤ k)) k) ∧
    (∀ k, st = .partner → d.twin.sealHeld = some (now, k) → sealComplete d k = true →
      batch (fun h => decide (h.num ≤ k)) k) ∧
    (st = .owner → d.twin.sealed = none → y.2.twin.linkUp = false) ∧
    (st = .partner → d.twin.sealHeld = none → y.2.twin.linkUp = false ∧ y.2.twin.withhold = some now) ∧
    (∀ p : Pair, st = .alone → calm → (only (.pairReset p) ∨ only (.rejoinCold p)) →
      (pstate d p ≠ 5 → boots → pstate c p = 4 ∧ (ply c p).frozen = some (now + 1) ∧ (ply c p).cold = true) ∧
      (pstate d p = 5 → c.ply = d.ply ∧ c.regs = d.regs)) ∧
    (st = .alone → calm → only .shutdown →
      ((emergencyHeld b.2 = true ∨ pmode d ≠ 0) → Captured .bist 0x100 d c ∧ x.1 = s.role) ∧
      (emergencyHeld b.2 = false → pmode d = 0 → x.1.state = .quiet ∧ x.1.hold = true ∧ pmode c = 1 ∧
        c.bist.shutFrame = now ∧ c.cht.computing = none ∧ ∀ k : Blk, flag c (hdrEn k) = false)) ∧
    (st = .alone → calm → only .standby →
      ((emergencyHeld b.2 = true ∨ pmode d ≠ 0) → Captured .bist 0x100 d c ∧ x.1 = s.role) ∧
      (emergencyHeld b.2 = false → pmode d = 0 → x.1 = s.role ∧ pmode c = 3 ∧ c.cht.computing = none ∧ c.bist.wakeHeld = false ∧
        (∀ k ∈ gatedBlks, flag c (hdrEn k) = false) ∧ ∀ p : Pair, p.val ≠ 0 → pstate d p ≠ 5 → pstate c p = 0)) ∧
    (st = .alone → calm → only .wake → (pmode d = 4 → pmode c = 5) ∧ (pmode d = 3 → c.bist.wakeHeld = true ∧ c.regs = d.regs) ∧
      (pmode d ≠ 3 → pmode d ≠ 4 → c.regs = d.regs)) ∧
    (∀ slot hold, calm →
      (sealed (.twinQuiet slot hold) → slot = slotB d → x.1.state = .quiet ∧ x.1.hold = hold ∧ x.1.ownLow = false ∧
        x.1.beating = false) ∧
      (sealed (.twinQuiet slot hold) → boots → slot ≠ slotB d → x.1.state = .alone ∧ x.1.ownLow = true ∧
        c.commit.forwarded = []) ∧
      (st = .alone → only (.twinQuiet slot hold) → slot = slotB d → Captured .twin 0x107 d c ∧ x.1 = s.role)) ∧
    (∀ slot, st = .quiet → calm →
      (only (.twinRelease slot) → x.1 = { s.role with hold := s.role.hold && slot != slotB d }) ∧
      (only (.twinJoin slot) → (s.role.hold = true ∨ slot ≠ slotB d) → x.1 = s.role) ∧
      (only (.twinJoin slot) → s.role.hold = false → slot = slotB d → boots →
        (d.twin.linkUp = true → x.1.state = .joining) ∧ (d.twin.linkUp = false → x.1.state = .quiet ∧ Captured .twin 0x106 d c))) ∧
    (calm → boots → only .joinFrame → (st = .alone → x.1.state = .owner ∧ c.twin.sent = none) ∧
      (st = .joining → d.twin.joinBad = false → x.1.state = .partner ∧ rd c twinJoinProgress = 100)) ∧
    (∀ bank n, still → d.cht.armed = some (now, bank) → bank.length = 12 → d.cht.computing = some n → d.cht.overran = [] →
      y.2.cht.armed = none ∧ flag y.2 chtArmed = false ∧ rd64 y.2 chtAppliedFrameLo chtAppliedFrameHi = now.toNat ∧
      ∀ p, p < 12 → actMask y.2 p = (nth bank p (0, 0)).2.toNat ∧ rd y.2 (chtActProg p) = (nth bank p (0, 0)).1.toNat) ∧
    (∀ bank n m, still → d.cht.armed = some (now, bank) → d.cht.computing = some n → m ∈ d.cht.moves →
      m.from_ ∈ d.cht.overran → muted d m.from_ = false →
      y.2.cht.armed = some (now + 1, bank) ∧ flag y.2 chtPostponed = true ∧
        rd64 y.2 chtSwitchFrameLo chtSwitchFrameHi = (now + 1).toNat) ∧
    (∀ h : Hello, st = .startUp → boots → d.twin.peerHello = some h → d.twin.linkUp = true → helloFits d h = true →
      h.state = .startUp → d.commit.held = [] → calm → d.twin.stopping = false →
      y.1.state = (if slotB d then .partner else .owner) ∧ y.1.ownLow = !slotB d ∧ y.1.beating = true) ∧
    (d.twin.dying = true → boots → d.commit.held = [] → roleOk s.role = true → y.1.state = .quiet ∧ y.1.ownLow = false ∧
      y.1.beating = false)

/-- R26, R27, R83, R86 to R91, R291, R397, R398. The instants inside a frame period, each at its cycle: the input digest is
known; DONE clears, the pairs with skeins are started and a move still unfinished is late; the completions missing are the
overruns; the migration is triggered for the switch frame only, and the twin is then asked for what moves from it; a module that computes nothing sends nothing and leaves
zeros to the TDM ports; one that is ALONE sends each of its streams on each running leg; the owner seals its changes. -/
def Obligations.FrameInstants : Prop :=
  ∀ s : State, awake s.dev = true →
    let d := s.dev
    let st := s.role.state
    let at_ (c : Nat) (t : Dev) : Prop := t.clk = { d.clk with cycle := c }
    Ends .inputReady s (fun t => t.pending = s.pending ∧ at_ 4096 t.dev ∧
      (∃ g, t.dev.twin.ownDigest = some (workFrame d, g)) ∧ (d.twin.peerDigest = none → t.role = s.role)) ∧
    Does .frameStart s (fun t => at_ 8192 t ∧ rd t chtDoneStatus = 0 ∧ t.mem = d.mem ∧
      t.evc.pulses = d.evc.pulses ++ (if d.cht.computing.isSome && !d.evc.asleep then
        (List.range 12).filter (fun p => actMask d p != 0) else []) ∧
      (d.cht.armed = none → t.cht.moves = [] ∧ ∀ m ∈ t.cht.tail, m.src = 1 ∧ m.done = false) ∧
      (d.cht.armed ≠ none → t.cht.moves = d.cht.moves)) ∧
    Does .outputOpen s (fun t => at_ 108032 t ∧
      let late := if d.cht.computing.isSome then
        (List.range 12).filter (fun p => bit (rd d chtDoneExpect) p && !bit (rd d chtDoneStatus) p) else []
      t.cht.overran = late ∧ rd t chtOverrunCount = min (rd d chtOverrunCount + late.length) (2 ^ 32 - 1)) ∧
    (d.cht.armed = none → Does .migrationTrigger s (fun t => t = atCycle 108288 d)) ∧
    (∀ f bank, d.cht.armed = some (f, bank) → (f ≠ d.clk.frame ∨ d.cht.computing = none) →
      Does .migrationTrigger s (fun t => t = atCycle 108288 d)) ∧
    (∀ bank c (n : Chan), d.cht.armed = some (d.clk.frame, bank) → d.cht.computing = some c → d.cht.overran = [] →
      d.sp.pulses = [] → (∀ x, x < 128 → x ≠ n.val → flag d (chChCtrlEn x) = false) → flag d (chChCtrlEn n) = true →
      actTrig d n = 144 → flag d (chChStatusActive n) = false → flag d (chChStatusLatched n) = false →
      (∀ m ∈ d.cht.moves, m.src ≠ 1 ∨ m.done = true) → Does .migrationTrigger s (fun t =>
        let moves := d.cht.moves.map (fun m =>
          { m with begun := true, mark := (spGet d (rd d (chtSpindleCh m.skein))).fulls })
        t = wr { atCycle 108288 d with cht := { d.cht with moves := moves } } (chChStatusLatched n) 1)) ∧
    (∀ bank c, d.cht.armed = some (d.clk.frame, bank) → d.cht.computing = some c → d.cht.overran = [] → d.twin.linkUp = true →
      ∀ m ∈ d.cht.moves, m.src = 1 → m.done = false → Does .migrationTrigger s (fun t => ∃ l f, (⟨l, false, f,
        .bulk 0 (.askSkein (Fin.ofNat 64 m.skein) (Fin.ofNat 12 m.to_))⟩ : ApdinMsg) ∈ t.out.apdin)) ∧
    (Ends .txStart s (fun t => t.pending = s.pending ∧ at_ 109568 t.dev ∧ (d.twin.peerHash = [] → t.role = s.role))) ∧
    (d.cht.computing = none → Does .txStart s (fun t => t.out = d.out ∧ t.regs = d.regs ∧ t.mem = d.mem ∧
      ∀ k sl j, k < 12 → sl < 16 → j < nSamp d →
        tget (fun _ => 0) t.strm.tdmBuf (tdmKey (workFrame d).toNat k sl j) = 0)) ∧
    (∀ net : Fin 2, st = .alone → d.cht.computing ≠ none → d.twin.peerHash = [] →
      Does .txStart s (fun t => rd t (strmTxPkts net) = min (rd d (strmTxPkts net) +
        ((List.range 96).filter (fun x => flag d (txEn x) && txLeg d x net && txActive .alone d net &&
          strmRunning d net)).length) (2 ^ 32 - 1))) ∧
    (ownsTdm st = false → Does .seal s (fun t => t = atCycle 120000 d)) ∧
    (ownsTdm st = true → Does .seal s (fun t => at_ 120000 t ∧ t.twin.sealed = some (d.clk.frame, d.commit.count) ∧
      t.commit = d.commit ∧ t.regs = d.regs ∧
      (d.twin.linkUp = true → t.out.apdin =
        ⟨d.twin.txLseq + 1, false, d.clk.frame, .seal d.clk.frame d.commit.count⟩ :: d.out.apdin) ∧
      (d.twin.linkUp = false → t.out = d.out)))

/-- R87, R296 to R299, R308, R389. A sample of the frame: the heartbeat toggles where it runs and goes out on the link; the ports that
drive send the words of their buffers, with an FSYNC of one BCLK or of a slot, and capture what comes in where this module owns
the line; one that begins or ceases to drive raises DRIVE_CHANGE (the instant is the model's choice, log entry 134). A pair's completion counts if
it names the frame of its descriptor, and is captured if not. -/
def Obligations.Samples : Prop :=
  ∀ s : State, awake s.dev = true →
    let d := s.dev
    let st := s.role.state
    (∀ (i : Fin 12) (x : List W32), nSamp d ≤ i.val → Ends (.sampleTick i x) s (fun t => t = s)) ∧
    (∀ (i : Fin 12) (x : List W32), i.val < nSamp d → (∀ k, flag d (hdrQuiescing (.tdm k)) = false) →
      Ends (.sampleTick i x) s (fun t => t.pending = s.pending ∧ t.dev.mem = d.mem ∧
        (∀ a, (∀ k : Fin 12, a ≠ (hdrEvtFlag (.tdm k)).off) → rdw t.dev a = rdw d a) ∧
        (∀ k : Fin 12,
          let drives := tdmDrives st d k
          bit (rd t.dev (hdrEvtFlag (.tdm k))) 0 = (bit (rd d (hdrEvtFlag (.tdm k))) 0 ||
            drives != tget (fun _ => false) d.strm.driving k) ∧
          tget (fun _ => 0) t.dev.strm.tdmFsync k =
            (if drives then (if flag d (tdmFsyncSlot k) then 32 else 1) else 0)) ∧
        t.dev.clk = { d.clk with cycle := sampCycles d * i, sample := i } ∧
        t.role = { s.role with beatLevel := s.role.beatLevel != s.role.beating } ∧
        (s.role.beating = true → d.twin.linkUp = true → ∃ tick, t.dev.out.apdin =
          ⟨d.twin.txLseq + 1, false, d.clk.frame, .beat i st tick⟩ :: d.out.apdin) ∧
        (s.role.beating = false → t.dev.out = d.out) ∧
        ∀ k sl, k < 12 → sl < 16 →
          tget (fun _ => 0) t.dev.strm.tdmOut (16 * k + sl) =
            (if tdmDrives st d k then tget (fun _ => 0) d.strm.tdmBuf (tdmKey (d.clk.frame.toNat + 1) k sl i) else 0) ∧
          (ownsTdm st = true → tdmDrives st d k = true →
            tget (fun _ => 0) t.dev.strm.capture (((d.clk.frame.toNat % 2 * 12 + k) * 16 + sl) * 16 + i) =
              nth x (16 * k + sl) 0))) ∧
    (∀ (ini : Initiator) (p : Pair) (v : W32), accepted s ini (0x50080 + 4 * p) v.toNat = true →
      (v.toNat = rdN d (localBase p + 0x7FF00) 4 → Does (.doneCpn ini p v) s (fun t =>
        bit (rd t chtDoneStatus) p = true ∧ t.mem = d.mem ∧ ∀ x, x ≠ chtDoneStatus.off → rdw t x = rdw d x)) ∧
      (v.toNat ≠ rdN d (localBase p + 0x7FF00) 4 → Does (.doneCpn ini p v) s (fun t => Captured .cht 0x106 d t ∧
        rd t chtDoneStatus = rd d chtDoneStatus)))

/-! ### The management gateway -/

/-- R60 to R68, R399. What a Hank request to HANK_PORT meets: a malformed one and one without a valid tag are counted and not answered; one
that comes while another of its hue awaits its commit, an old one, and a repeated one are answered without being executed;
a new one with an operation that is refused executes nothing, and every other one is executed and answered, at once or after
its commit. Replies go to the source of the request. (That nothing is counted while GW does not run, and that an equal SEQ
without a cached reply is stale, is the model's reading, log entry 61.) -/
def Obligations.HankRequests : Prop :=
  ∀ (s : State) (src : HankFrom) (msg : List Byte), awake s.dev = true →
    let d := s.dev
    let h := msgN msg 4 1
    let seq : Word := BitVec.ofNat 64 (msgN msg 8 8)
    let last := lastSeq d h
    let floor := tget (fun _ => false) d.gw.flooring h
    let body := msg.take (msg.length - 16)
    let one (f : Fld) (t : Dev) : Prop := t.regs = (inc d f).regs ∧ t.gw = d.gw ∧ t.mem = d.mem
    let cached := tget (fun _ => none) d.gw.cached h
    ((flag d (hdrActive .gw) = false ∨ src.to_.toNat ≠ rd d gwHankPort) → Does (.hankRequest ⟨src, msg⟩) s (fun t => t = d)) ∧
    (flag d (hdrActive .gw) = true → src.to_.toNat = rd d gwHankPort → hankFormat msg = false →
      Does (.hankRequest ⟨src, msg⟩) s (fun t => t = inc d gwFormatErrCount)) ∧
    (flag d (hdrActive .gw) = true → src.to_.toNat = rd d gwHankPort → hankFormat msg = true →
      (keyOf d h = none → Does (.hankRequest ⟨src, msg⟩) s (fun t => t = inc d gwAuthFailCount)) ∧
      (∀ key, keyOf d h = some key → msg.drop (msg.length - 16) ≠ hankTag key body →
        Does (.hankRequest ⟨src, msg⟩) s (fun t => t = inc d gwAuthFailCount)) ∧
      (∀ key, keyOf d h = some key → msg.drop (msg.length - 16) = hankTag key body →
        let sent (r : List Byte) (t : Dev) : Prop := t.out.hank = (src, r ++ hankTag key r) :: d.out.hank
        (floor = true → Does (.hankRequest ⟨src, msg⟩) s (fun t => one gwStaleCount t ∧ sent (plainReply msg 8 0) t)) ∧
        (floor = false → seq < last →
          Does (.hankRequest ⟨src, msg⟩) s (fun t => one gwStaleCount t ∧ sent (plainReply msg 8 last.toNat) t)) ∧
        (floor = false → last < seq → awaiting d h ≠ none →
          Does (.hankRequest ⟨src, msg⟩) s (fun t => one gwBusyCount t ∧ sent (plainReply msg 0x20 0) t)) ∧
        (floor = false → seq = last → (∀ w, awaiting d h = some w → w.seq ≠ seq) →
          (∀ r, cached = some r → Does (.hankRequest ⟨src, msg⟩) s (fun t => t.regs = d.regs ∧ t.gw = d.gw ∧ t.mem = d.mem ∧
            sent (addFlags 4 r) t)) ∧
          (cached = none → Does (.hankRequest ⟨src, msg⟩) s (fun t => one gwStaleCount t ∧ sent (plainReply msg 8 last.toNat) t))) ∧
        (floor = false → seq = last → (∃ w, awaiting d h = some w ∧ w.seq = seq) →
          Does (.hankRequest ⟨src, msg⟩) s (fun t => t.regs = d.regs ∧ t.gw = d.gw ∧ t.mem = d.mem ∧
            sent (plainReply msg 0x20 0) t)) ∧
        (floor = false → last < seq → awaiting d h = none →
          ((∃ o ∈ hankOps msg, judgeOp d (Fin.ofNat 16 h) o ≠ 0) → Does (.hankRequest ⟨src, msg⟩) s (fun t =>
            lastSeq t h = seq ∧ t.mem = d.mem ∧ t.commit = d.commit ∧
            ∃ r, tget (fun _ => none) t.gw.cached h = some r ∧ sent r t ∧ msgN r 3 1 = 3)) ∧
          ((∀ o ∈ hankOps msg, judgeOp d (Fin.ofNat 16 h) o = 0) → Ends (.hankRequest ⟨src, msg⟩) s (fun t =>
            t.pending = s.pending ∧ lastSeq t.dev h = seq ∧
            (changesOf t.dev (Fin.ofNat 16 h) seq = true → ∃ r, awaiting t.dev h = some ⟨src, seq, r, none, false⟩ ∧
              t.dev.out.hank = d.out.hank) ∧
            (changesOf t.dev (Fin.ofNat 16 h) seq = false → keyOf t.dev h = some key →
              ∃ r, tget (fun _ => none) t.dev.gw.cached h = some r ∧ sent r t.dev))))))

/-- R65, R67, R68, R399. The reply of a request whose changes have applied goes out with their frame; a key committed is taken
from KEY_DATA, which clears, and unless the sequence is kept its floor becomes a control change; a key revoked is gone. (That
a module neither OWNER nor PARTNER applies its own changes at its next tick is the model's choice, log entry 79.) -/
def Obligations.HankReplyAndKeys : Prop :=
  ∀ (s : State), awake s.dev = true →
    let d := s.dev
    let sel := rd d gwKeySel
    let key := (List.range 8).foldl (fun k j => k + rd d (gwKeyData j) * 2 ^ (32 * j)) 0
    (∀ h : Hue,
      ((∀ w, awaiting d h = some w → w.frame = none ∨ (w.covered = false ∧ s.role.state ≠ .alone)) → Does (.hankCommittedReply h) s (fun t => t = d)) ∧
      (∀ w f, awaiting d h = some w → w.frame = some f → (w.covered = true ∨ s.role.state = .alone) → Does (.hankCommittedReply h) s (fun t =>
        let r := addFlags 0x10 (putFrame f.toNat w.reply)
        awaiting t h = none ∧ t.regs = d.regs ∧ t.mem = d.mem ∧ lastSeq t h = lastSeq d h ∧
        (lastSeq d h = w.seq → tget (fun _ => none) t.gw.cached h = some r) ∧
        (∀ k, keyOf d h = some k → t.out.hank = (w.src, r ++ hankTag k r) :: d.out.hank) ∧
        (keyOf d h = none → t.out = d.out)))) ∧
    (∀ (ini : Initiator) (keep : Bool), accepted s ini 0x106C (if keep then 5 else 1) = true →
      Does (.keyCommit ini keep) s (fun t => keyOf t sel = some key ∧ (∀ j, j < 8 → rd t (gwKeyData j) = 0) ∧
        lastSeq t sel = lastSeq d sel ∧ t.mem = d.mem ∧ (∀ h, h ≠ sel → keyOf t h = keyOf d h) ∧
        (keep = true → t.commit = d.commit ∧ t.gw.flooring = d.gw.flooring) ∧
        (keep = false → tget (fun _ => false) t.gw.flooring sel = true ∧
          (s.role.state ≠ .partner → ⟨d.commit.count + 1, .seqFloor (Fin.ofNat 16 sel), none⟩ ∈ t.commit.held) ∧
          (s.role.state = .partner → (.seqFloor (Fin.ofNat 16 sel), none) ∈ t.commit.forwarded)))) ∧
    (∀ ini, accepted s ini 0x106C 2 = true → Does (.keyRevoke ini) s (fun t => keyOf t sel = none ∧ t.regs = d.regs ∧
      t.mem = d.mem ∧ t.commit = d.commit ∧ ∀ h, h ≠ sel → keyOf t h = keyOf d h))
end

