-- ==== Sys2Proof/Laws/Table.lean ====
section
/-! SUPPORT. Sparse tables: a read after a write, and the canonical form that every write keeps. -/

namespace Sys2Proof.Machine

variable {α : Type}

theorem tget_tdel_same (d : Nat → α) (t : Table α) (k : Nat) : tget d (tdel t k) k = d k := by
  induction t with
  | nil => rfl
  | cons e r ih =>
    by_cases h : e.1 = k
    · simp [tdel, h, ih]
    · simp [tdel, tget, h, ih]

theorem tget_tdel_ne (d : Nat → α) (t : Table α) {j k : Nat} (h : j ≠ k) : tget d (tdel t k) j = tget d t j := by
  induction t with
  | nil => rfl
  | cons e r ih =>
    by_cases hk : e.1 = k
    · have : e.1 ≠ j := fun hh => h (hh.symm.trans hk)
      simp [tdel, tget, hk, ih]
      intro hh; exact absurd hh.symm h
    · by_cases hj : e.1 = j
      · rw [tdel, if_neg hk]
        simp [tget, hj]
      · simp [tdel, tget, hk, hj, ih]

theorem tget_tins_same (d : Nat → α) (t : Table α) (k : Nat) (v : α) (hn : ∀ e ∈ t, e.1 ≠ k) :
    tget d (tins t k v) k = v := by
  induction t with
  | nil => simp [tins, tget]
  | cons e r ih =>
    have he : e.1 ≠ k := hn e (by simp)
    by_cases hlt : k < e.1
    · simp [tins, tget, hlt]
    · simp only [tins, hlt, if_false, tget, he]
      exact ih (fun x hx => hn x (by simp [hx]))

theorem tget_tins_ne (d : Nat → α) (t : Table α) {j k : Nat} (v : α) (h : j ≠ k) :
    tget d (tins t k v) j = tget d t j := by
  induction t with
  | nil => simp [tins, tget]; intro hh; exact absurd hh.symm h
  | cons e r ih =>
    by_cases hlt : k < e.1
    · simp [tins, tget, hlt]; intro hh; exact absurd hh.symm h
    · simp [tins, tget, hlt, ih]

theorem tdel_keys (t : Table α) (k : Nat) : ∀ e ∈ tdel t k, e.1 ≠ k := by
  induction t with
  | nil => simp [tdel]
  | cons e r ih =>
    by_cases h : e.1 = k
    · simpa [tdel, h] using ih
    · simp only [tdel, h, if_false, List.mem_cons]
      rintro x (rfl | hx)
      · exact h
      · exact ih x hx

theorem tabove_mono {t : Table α} {a b : Nat} (h : a ≤ b) (ht : tabove b t = true) : tabove a t = true := by
  induction t with
  | nil => rfl
  | cons e r ih =>
    simp only [tabove, Bool.and_eq_true, decide_eq_true_eq] at ht ⊢
    exact ⟨by omega, ih ht.2⟩

theorem tabove_tdel {t : Table α} {b : Nat} (k : Nat) (ht : tabove b t = true) : tabove b (tdel t k) = true := by
  induction t with
  | nil => rfl
  | cons e r ih =>
    simp only [tabove, Bool.and_eq_true, decide_eq_true_eq] at ht
    by_cases h : e.1 = k
    · simpa [tdel, h] using ih ht.2
    · simp [tdel, h, tabove, ht.1, ih ht.2]

theorem tabove_tins {t : Table α} {b k : Nat} (v : α) (hb : b < k) (ht : tabove b t = true) :
    tabove b (tins t k v) = true := by
  induction t with
  | nil => simp [tins, tabove, hb]
  | cons e r ih =>
    simp only [tabove, Bool.and_eq_true, decide_eq_true_eq] at ht
    by_cases h : k < e.1
    · simp [tins, h, tabove, hb, ht.1, ht.2]
    · simp [tins, h, tabove, ht.1, ih ht.2]

theorem tabove_filter {t : Table α} {b : Nat} (f : Nat × α → Bool) (ht : tabove b t = true) :
    tabove b (t.filter f) = true := by
  induction t with
  | nil => rfl
  | cons e r ih =>
    simp only [tabove, Bool.and_eq_true, decide_eq_true_eq] at ht
    by_cases h : f e
    · simp [List.filter, h, tabove, ht.1, ih ht.2]
    · simpa [List.filter, h] using ih ht.2

variable [DecidableEq α]

/-- A read of the key just written. -/
@[simp] theorem tget_tset_same (d : Nat → α) (t : Table α) (k : Nat) (v : α) : tget d (tset d t k v) k = v := by
  unfold tset
  split
  · rename_i h; rw [tget_tdel_same, h]
  · exact tget_tins_same d _ k v (tdel_keys t k)

/-- A read of another key. -/
theorem tget_tset_ne (d : Nat → α) (t : Table α) {j k : Nat} (v : α) (h : j ≠ k) :
    tget d (tset d t k v) j = tget d t j := by
  unfold tset
  split
  · exact tget_tdel_ne d t h
  · rw [tget_tins_ne d _ v h, tget_tdel_ne d t h]

/-- A read after a write, of any key. -/
theorem tget_tset (d : Nat → α) (t : Table α) (j k : Nat) (v : α) :
    tget d (tset d t k v) j = if j = k then v else tget d t j := by
  by_cases h : j = k
  · subst h; simp
  · simp [h, tget_tset_ne d t v h]

theorem twf_tdel {d : Nat → α} {t : Table α} (k : Nat) (h : twf d t = true) : twf d (tdel t k) = true := by
  induction t with
  | nil => rfl
  | cons e r ih =>
    simp only [twf, Bool.and_eq_true, decide_eq_true_eq] at h
    by_cases hk : e.1 = k
    · simpa [tdel, hk] using ih h.2
    · simp [tdel, hk, twf, h.1.1, tabove_tdel k h.1.2, ih h.2]

theorem twf_tins {d : Nat → α} {t : Table α} {k : Nat} {v : α} (hv : v ≠ d k) (hk : ∀ e ∈ t, e.1 ≠ k)
    (h : twf d t = true) : twf d (tins t k v) = true := by
  induction t with
  | nil => simp [tins, twf, tabove, hv]
  | cons e r ih =>
    have hw := h
    simp only [twf, Bool.and_eq_true, decide_eq_true_eq] at h
    by_cases hlt : k < e.1
    · simp [tins, hlt, twf, tabove, hv, h.1.1, h.1.2, h.2, tabove_mono (Nat.le_of_lt hlt) h.1.2]
    · have hne : e.1 ≠ k := hk e (by simp)
      have : e.1 < k := by omega
      simp [tins, hlt, twf, h.1.1, tabove_tins v this h.1.2, ih (fun x hx => hk x (by simp [hx])) h.2]

/-- A write keeps the canonical form. -/
theorem twf_tset {d : Nat → α} {t : Table α} (k : Nat) (v : α) (h : twf d t = true) : twf d (tset d t k v) = true := by
  unfold tset
  split
  · exact twf_tdel k h
  · rename_i hv
    exact twf_tins hv (tdel_keys t k) (twf_tdel k h)

/-- Dropping entries keeps the canonical form. -/
theorem twf_filter {d : Nat → α} {t : Table α} (f : Nat × α → Bool) (h : twf d t = true) : twf d (t.filter f) = true := by
  induction t with
  | nil => rfl
  | cons e r ih =>
    simp only [twf, Bool.and_eq_true, decide_eq_true_eq] at h
    by_cases hf : f e
    · simp [List.filter, hf, twf, h.1.1, tabove_filter f h.1.2, ih h.2]
    · simpa [List.filter, hf] using ih h.2

end Sys2Proof.Machine
end

