-- ==== Sys2Proof/Laws/Memory.lean ====
section
/-! SUPPORT. Memory and the register file: reads after writes, and the canonical form that every operation on memory
keeps and reset has. -/

namespace Sys2Proof.Machine

open Sys2Proof.Safety

/-! ### Memory -/

/-- A byte just written reads back. -/
@[simp] theorem rdB_wrB_same (d : Dev) (a : Nat) (v : Byte) : rdB (wrB d a v) a = v := by simp [rdB, wrB]

/-- A byte written leaves every other byte alone. -/
theorem rdB_wrB_ne (d : Dev) {a b : Nat} (v : Byte) (h : b ≠ a) : rdB (wrB d a v) b = rdB d b := by
  simp [rdB, wrB, tget_tset_ne _ _ _ h]

theorem tget_putBytes_out {m : Table Byte} {a b : Nat} {l : List Byte} (h : b < a ∨ a + l.length ≤ b) :
    tget memReset (putBytes m a l) b = tget memReset m b := by
  induction l generalizing m a with
  | nil => rfl
  | cons x r ih =>
    simp only [putBytes, List.length_cons] at h ⊢
    rw [ih (by omega), tget_tset_ne _ _ _ (by omega)]

theorem tget_putBytes_in {m : Table Byte} {a i : Nat} {l : List Byte} (h : i < l.length) :
    tget memReset (putBytes m a l) (a + i) = l[i] := by
  induction l generalizing m a i with
  | nil => simp at h
  | cons x r ih =>
    cases i with
    | zero =>
      simp only [putBytes, Nat.add_zero, List.getElem_cons_zero]
      rw [tget_putBytes_out (by omega), tget_tset_same]
    | succ j =>
      simp only [putBytes, List.getElem_cons_succ]
      have := ih (m := tset memReset m a x) (a := a + 1) (i := j) (by simpa using h)
      rw [← this]; congr 1; omega

/-- Bytes written read back. -/
theorem rdB_wrBytes_in (d : Dev) {a i : Nat} {l : List Byte} (h : i < l.length) :
    rdB (wrBytes d a l) (a + i) = l[i] := tget_putBytes_in h

/-- Bytes written leave every byte outside them alone. -/
theorem rdB_wrBytes_out (d : Dev) {a b : Nat} {l : List Byte} (h : b < a ∨ a + l.length ≤ b) :
    rdB (wrBytes d a l) b = rdB d b := tget_putBytes_out h

theorem twf_putBytes {m : Table Byte} (a : Nat) (l : List Byte) (h : twf memReset m = true) :
    twf memReset (putBytes m a l) = true := by
  induction l generalizing m a with
  | nil => exact h
  | cons x r ih => exact ih _ (twf_tset a x h)

/-- A byte write keeps memory canonical. -/
theorem memOk_wrB {d : Dev} (a : Nat) (v : Byte) (h : memOk d = true) : memOk (wrB d a v) = true := twf_tset a v h

/-- A write of bytes keeps memory canonical. -/
theorem memOk_wrBytes {d : Dev} (a : Nat) (l : List Byte) (h : memOk d = true) : memOk (wrBytes d a l) = true :=
  twf_putBytes a l h

/-- A write of a number's bytes keeps memory canonical. -/
theorem memOk_wrN {d : Dev} (a n v : Nat) (h : memOk d = true) : memOk (wrN d a n v) = true := twf_putBytes a _ h

/-- Dropping a range keeps memory canonical (a cleared local memory, a module reset). -/
theorem memOk_filter {d : Dev} (f : Nat × Byte → Bool) (h : memOk d = true) :
    memOk { d with mem := d.mem.filter f } = true := twf_filter f h

/-- Memory is canonical at reset. -/
theorem memOk_reset : memOk State.reset.dev = true := rfl

/-! ### Register words -/

/-- A word just written reads back. -/
@[simp] theorem rdw_wrw_same (d : Dev) (a : Nat) (v : W32) : rdw (wrw d a v) a = v := by simp [rdw, wrw]

/-- A word written leaves every other word alone. -/
theorem rdw_wrw_ne (d : Dev) {a b : Nat} (v : W32) (h : b ≠ a) : rdw (wrw d a v) b = rdw d b := by
  simp [rdw, wrw, tget_tset_ne _ _ _ h]

/-- A word write keeps the register file canonical. -/
theorem regsOk_wrw {d : Dev} (a : Nat) (v : W32) (h : regsOk d = true) : regsOk (wrw d a v) = true := twf_tset a v h

/-- The register file is canonical at reset. -/
theorem regsOk_reset : regsOk State.reset.dev = true := rfl

/-! ### Register fields -/

/-- A field of another word is left alone. -/
theorem rd_wr_off (d : Dev) {f g : Fld} (v : Nat) (h : f.off ≠ g.off) : rd (wr d g v) f = rd d f := by
  simp [rd, wr, rdw_wrw_ne _ _ h]

theorem rdw_wr_off (d : Dev) {a : Nat} {g : Fld} (v : Nat) (h : a ≠ g.off) : rdw (wr d g v) a = rdw d a := by
  simp [wr, rdw_wrw_ne _ _ h]

theorem putBits_lt {n hi lo v : Nat} (h : lo ≤ hi) (hh : hi < 32) (hn : n < 2 ^ 32) : putBits n hi lo v < 2 ^ 32 := by
  unfold putBits
  have e1 : 2 ^ 32 = 2 ^ (31 - hi) * 2 ^ (hi + 1) := by rw [← Nat.pow_add]; congr 1; omega
  have e2 : 2 ^ (hi + 1) = 2 ^ (hi + 1 - lo) * 2 ^ lo := by rw [← Nat.pow_add]; congr 1; omega
  have h1 : n / 2 ^ (hi + 1) < 2 ^ (31 - hi) := by
    rw [Nat.div_lt_iff_lt_mul (Nat.two_pow_pos _)]; omega
  have h2 : v % 2 ^ (hi + 1 - lo) < 2 ^ (hi + 1 - lo) := Nat.mod_lt _ (Nat.two_pow_pos _)
  have h3 : n % 2 ^ lo < 2 ^ lo := Nat.mod_lt _ (Nat.two_pow_pos _)
  have h4 : (n / 2 ^ (hi + 1) + 1) * 2 ^ (hi + 1) ≤ 2 ^ (31 - hi) * 2 ^ (hi + 1) := Nat.mul_le_mul_right _ h1
  have h5 : (v % 2 ^ (hi + 1 - lo) + 1) * 2 ^ lo ≤ 2 ^ (hi + 1 - lo) * 2 ^ lo := Nat.mul_le_mul_right _ h2
  rw [Nat.add_mul] at h4 h5
  omega

theorem bits_putBits {n hi lo v : Nat} (h : lo ≤ hi) : bits (putBits n hi lo v) hi lo = v % 2 ^ (hi + 1 - lo) := by
  unfold bits putBits
  have e2 : 2 ^ (hi + 1) = 2 ^ (hi + 1 - lo) * 2 ^ lo := by rw [← Nat.pow_add]; congr 1; omega
  have e : n / 2 ^ (hi + 1) * 2 ^ (hi + 1) + v % 2 ^ (hi + 1 - lo) * 2 ^ lo + n % 2 ^ lo
      = n % 2 ^ lo + 2 ^ lo * (v % 2 ^ (hi + 1 - lo) + 2 ^ (hi + 1 - lo) * (n / 2 ^ (hi + 1))) := by
    rw [e2]; ring_nf
  rw [e, Nat.add_mul_div_left _ _ (Nat.two_pow_pos _), Nat.div_eq_of_lt (Nat.mod_lt _ (Nat.two_pow_pos _)), Nat.zero_add,
    Nat.add_mul_mod_self_left, Nat.mod_mod]

/-- A field just written reads back its low bits. -/
theorem rd_wr_same (d : Dev) {f : Fld} (v : Nat) (h : f.lo ≤ f.hi) (hh : f.hi < 32) :
    rd (wr d f v) f = v % 2 ^ (f.hi + 1 - f.lo) := by
  have hn : (rdw d f.off).toNat < 2 ^ 32 := (rdw d f.off).isLt
  simp only [rd, wr, rdw_wrw_same, BitVec.toNat_ofNat]
  rw [Nat.mod_eq_of_lt (putBits_lt h hh hn), bits_putBits h]

theorem bits_putBits_above {n hi lo v a b : Nat} (h : lo ≤ hi) (hb : hi < b) :
    bits (putBits n hi lo v) a b = bits n a b := by
  unfold bits putBits
  have e2 : 2 ^ (hi + 1) = 2 ^ (hi + 1 - lo) * 2 ^ lo := by rw [← Nat.pow_add]; congr 1; omega
  have h2 : v % 2 ^ (hi + 1 - lo) < 2 ^ (hi + 1 - lo) := Nat.mod_lt _ (Nat.two_pow_pos _)
  have h3 : n % 2 ^ lo < 2 ^ lo := Nat.mod_lt _ (Nat.two_pow_pos _)
  have h5 : (v % 2 ^ (hi + 1 - lo) + 1) * 2 ^ lo ≤ 2 ^ (hi + 1 - lo) * 2 ^ lo := Nat.mul_le_mul_right _ h2
  rw [Nat.add_mul] at h5
  have e : 2 ^ b = 2 ^ (hi + 1) * 2 ^ (b - (hi + 1)) := by rw [← Nat.pow_add]; congr 1; omega
  rw [Nat.add_assoc, e, ← Nat.div_div_eq_div_mul, ← Nat.div_div_eq_div_mul, Nat.mul_comm (n / 2 ^ (hi + 1)),
    Nat.mul_add_div (Nat.two_pow_pos _),
    Nat.div_eq_of_lt (show v % 2 ^ (hi + 1 - lo) * 2 ^ lo + n % 2 ^ lo < 2 ^ (hi + 1) by omega), Nat.add_zero]

theorem bits_putBits_below {n hi lo v a b : Nat} (h : lo ≤ hi) (ha : a < lo) (hab : b ≤ a) :
    bits (putBits n hi lo v) a b = bits n a b := by
  unfold bits
  have e : 2 ^ (a + 1) = 2 ^ b * 2 ^ (a + 1 - b) := by rw [← Nat.pow_add]; congr 1; omega
  rw [← Nat.mod_mul_right_div_self, ← Nat.mod_mul_right_div_self, ← e]
  congr 1
  unfold putBits
  have d1 : 2 ^ (a + 1) ∣ n / 2 ^ (hi + 1) * 2 ^ (hi + 1) :=
    Dvd.dvd.mul_left (pow_dvd_pow 2 (by omega)) _
  have d2 : 2 ^ (a + 1) ∣ v % 2 ^ (hi + 1 - lo) * 2 ^ lo := Dvd.dvd.mul_left (pow_dvd_pow 2 (by omega)) _
  obtain ⟨x, hx⟩ := Nat.dvd_add d1 d2
  rw [hx, Nat.mul_add_mod, Nat.mod_mod_of_dvd _ (pow_dvd_pow 2 (by omega))]

/-- A field above the one written, in the same word or another, is left alone. -/
theorem rd_wr_above (d : Dev) {f g : Fld} (v : Nat) (h : g.lo ≤ g.hi) (hh : g.hi < 32) (hfg : g.hi < f.lo) :
    rd (wr d g v) f = rd d f := by
  by_cases ho : f.off = g.off
  · have hn : (rdw d g.off).toNat < 2 ^ 32 := (rdw d g.off).isLt
    simp only [rd, wr, ho, rdw_wrw_same, BitVec.toNat_ofNat]
    rw [Nat.mod_eq_of_lt (putBits_lt h hh hn), bits_putBits_above h hfg]
  · exact rd_wr_off d v ho

/-- A field below the one written, in the same word or another, is left alone. -/
theorem rd_wr_below (d : Dev) {f g : Fld} (v : Nat) (h : g.lo ≤ g.hi) (hh : g.hi < 32) (hf : f.lo ≤ f.hi)
    (hfg : f.hi < g.lo) : rd (wr d g v) f = rd d f := by
  by_cases ho : f.off = g.off
  · have hn : (rdw d g.off).toNat < 2 ^ 32 := (rdw d g.off).isLt
    simp only [rd, wr, ho, rdw_wrw_same, BitVec.toNat_ofNat]
    rw [Nat.mod_eq_of_lt (putBits_lt h hh hn), bits_putBits_below h hfg hf]
  · exact rd_wr_off d v ho

end Sys2Proof.Machine
end

