-- ==== Sys2Proof/Laws/State.lean ====
section
/-! SUPPORT. What each update of the device leaves alone, field by field, and the reads it keeps. -/

namespace Sys2Proof.Machine

@[simp] theorem wrw_clk (d : Dev) (a : Nat) (v : W32) : (wrw d a v).clk = d.clk := rfl
@[simp] theorem wrw_mem (d : Dev) (a : Nat) (v : W32) : (wrw d a v).mem = d.mem := rfl
@[simp] theorem wrw_latch (d : Dev) (a : Nat) (v : W32) : (wrw d a v).latch = d.latch := rfl
@[simp] theorem wrw_freeCtr (d : Dev) (a : Nat) (v : W32) : (wrw d a v).freeCtr = d.freeCtr := rfl
@[simp] theorem wrw_log (d : Dev) (a : Nat) (v : W32) : (wrw d a v).log = d.log := rfl
@[simp] theorem wrw_sp (d : Dev) (a : Nat) (v : W32) : (wrw d a v).sp = d.sp := rfl
@[simp] theorem wrw_commit (d : Dev) (a : Nat) (v : W32) : (wrw d a v).commit = d.commit := rfl
@[simp] theorem wrw_gw (d : Dev) (a : Nat) (v : W32) : (wrw d a v).gw = d.gw := rfl
@[simp] theorem wrw_cht (d : Dev) (a : Nat) (v : W32) : (wrw d a v).cht = d.cht := rfl
@[simp] theorem wrw_bob (d : Dev) (a : Nat) (v : W32) : (wrw d a v).bob = d.bob := rfl
@[simp] theorem wrw_seq (d : Dev) (a : Nat) (v : W32) : (wrw d a v).seq = d.seq := rfl
@[simp] theorem wrw_stor (d : Dev) (a : Nat) (v : W32) : (wrw d a v).stor = d.stor := rfl
@[simp] theorem wrw_strm (d : Dev) (a : Nat) (v : W32) : (wrw d a v).strm = d.strm := rfl
@[simp] theorem wrw_ptp (d : Dev) (a : Nat) (v : W32) : (wrw d a v).ptp = d.ptp := rfl
@[simp] theorem wrw_twin (d : Dev) (a : Nat) (v : W32) : (wrw d a v).twin = d.twin := rfl
@[simp] theorem wrw_cores (d : Dev) (a : Nat) (v : W32) : (wrw d a v).cores = d.cores := rfl
@[simp] theorem wrw_evc (d : Dev) (a : Nat) (v : W32) : (wrw d a v).evc = d.evc := rfl
@[simp] theorem wrw_ply (d : Dev) (a : Nat) (v : W32) : (wrw d a v).ply = d.ply := rfl
@[simp] theorem wrw_sup (d : Dev) (a : Nat) (v : W32) : (wrw d a v).sup = d.sup := rfl
@[simp] theorem wrw_tag (d : Dev) (a : Nat) (v : W32) : (wrw d a v).tag = d.tag := rfl
@[simp] theorem wrw_wear (d : Dev) (a : Nat) (v : W32) : (wrw d a v).wear = d.wear := rfl
@[simp] theorem wrw_bist (d : Dev) (a : Nat) (v : W32) : (wrw d a v).bist = d.bist := rfl
@[simp] theorem wrw_cont (d : Dev) (a : Nat) (v : W32) : (wrw d a v).cont = d.cont := rfl
@[simp] theorem wrw_out (d : Dev) (a : Nat) (v : W32) : (wrw d a v).out = d.out := rfl
@[simp] theorem rdB_wrw (d : Dev) (a : Nat) (v : W32) (x : Nat) : rdB (wrw d a v) x = rdB d x := rfl
@[simp] theorem core_wrw (d : Dev) (a : Nat) (v : W32) (x : Nat) : core (wrw d a v) x = core d x := rfl

@[simp] theorem wr_clk (d : Dev) (f : Fld) (v : Nat) : (wr d f v).clk = d.clk := rfl
@[simp] theorem wr_mem (d : Dev) (f : Fld) (v : Nat) : (wr d f v).mem = d.mem := rfl
@[simp] theorem wr_latch (d : Dev) (f : Fld) (v : Nat) : (wr d f v).latch = d.latch := rfl
@[simp] theorem wr_freeCtr (d : Dev) (f : Fld) (v : Nat) : (wr d f v).freeCtr = d.freeCtr := rfl
@[simp] theorem wr_log (d : Dev) (f : Fld) (v : Nat) : (wr d f v).log = d.log := rfl
@[simp] theorem wr_sp (d : Dev) (f : Fld) (v : Nat) : (wr d f v).sp = d.sp := rfl
@[simp] theorem wr_commit (d : Dev) (f : Fld) (v : Nat) : (wr d f v).commit = d.commit := rfl
@[simp] theorem wr_gw (d : Dev) (f : Fld) (v : Nat) : (wr d f v).gw = d.gw := rfl
@[simp] theorem wr_cht (d : Dev) (f : Fld) (v : Nat) : (wr d f v).cht = d.cht := rfl
@[simp] theorem wr_bob (d : Dev) (f : Fld) (v : Nat) : (wr d f v).bob = d.bob := rfl
@[simp] theorem wr_seq (d : Dev) (f : Fld) (v : Nat) : (wr d f v).seq = d.seq := rfl
@[simp] theorem wr_stor (d : Dev) (f : Fld) (v : Nat) : (wr d f v).stor = d.stor := rfl
@[simp] theorem wr_strm (d : Dev) (f : Fld) (v : Nat) : (wr d f v).strm = d.strm := rfl
@[simp] theorem wr_ptp (d : Dev) (f : Fld) (v : Nat) : (wr d f v).ptp = d.ptp := rfl
@[simp] theorem wr_twin (d : Dev) (f : Fld) (v : Nat) : (wr d f v).twin = d.twin := rfl
@[simp] theorem wr_cores (d : Dev) (f : Fld) (v : Nat) : (wr d f v).cores = d.cores := rfl
@[simp] theorem wr_evc (d : Dev) (f : Fld) (v : Nat) : (wr d f v).evc = d.evc := rfl
@[simp] theorem wr_ply (d : Dev) (f : Fld) (v : Nat) : (wr d f v).ply = d.ply := rfl
@[simp] theorem wr_sup (d : Dev) (f : Fld) (v : Nat) : (wr d f v).sup = d.sup := rfl
@[simp] theorem wr_tag (d : Dev) (f : Fld) (v : Nat) : (wr d f v).tag = d.tag := rfl
@[simp] theorem wr_wear (d : Dev) (f : Fld) (v : Nat) : (wr d f v).wear = d.wear := rfl
@[simp] theorem wr_bist (d : Dev) (f : Fld) (v : Nat) : (wr d f v).bist = d.bist := rfl
@[simp] theorem wr_cont (d : Dev) (f : Fld) (v : Nat) : (wr d f v).cont = d.cont := rfl
@[simp] theorem wr_out (d : Dev) (f : Fld) (v : Nat) : (wr d f v).out = d.out := rfl
@[simp] theorem rdB_wr (d : Dev) (f : Fld) (v : Nat) (x : Nat) : rdB (wr d f v) x = rdB d x := rfl
@[simp] theorem core_wr (d : Dev) (f : Fld) (v : Nat) (x : Nat) : core (wr d f v) x = core d x := rfl

@[simp] theorem inc_clk (d : Dev) (f : Fld) : (inc d f).clk = d.clk := rfl
@[simp] theorem inc_mem (d : Dev) (f : Fld) : (inc d f).mem = d.mem := rfl
@[simp] theorem inc_latch (d : Dev) (f : Fld) : (inc d f).latch = d.latch := rfl
@[simp] theorem inc_freeCtr (d : Dev) (f : Fld) : (inc d f).freeCtr = d.freeCtr := rfl
@[simp] theorem inc_log (d : Dev) (f : Fld) : (inc d f).log = d.log := rfl
@[simp] theorem inc_sp (d : Dev) (f : Fld) : (inc d f).sp = d.sp := rfl
@[simp] theorem inc_commit (d : Dev) (f : Fld) : (inc d f).commit = d.commit := rfl
@[simp] theorem inc_gw (d : Dev) (f : Fld) : (inc d f).gw = d.gw := rfl
@[simp] theorem inc_cht (d : Dev) (f : Fld) : (inc d f).cht = d.cht := rfl
@[simp] theorem inc_bob (d : Dev) (f : Fld) : (inc d f).bob = d.bob := rfl
@[simp] theorem inc_seq (d : Dev) (f : Fld) : (inc d f).seq = d.seq := rfl
@[simp] theorem inc_stor (d : Dev) (f : Fld) : (inc d f).stor = d.stor := rfl
@[simp] theorem inc_strm (d : Dev) (f : Fld) : (inc d f).strm = d.strm := rfl
@[simp] theorem inc_ptp (d : Dev) (f : Fld) : (inc d f).ptp = d.ptp := rfl
@[simp] theorem inc_twin (d : Dev) (f : Fld) : (inc d f).twin = d.twin := rfl
@[simp] theorem inc_cores (d : Dev) (f : Fld) : (inc d f).cores = d.cores := rfl
@[simp] theorem inc_evc (d : Dev) (f : Fld) : (inc d f).evc = d.evc := rfl
@[simp] theorem inc_ply (d : Dev) (f : Fld) : (inc d f).ply = d.ply := rfl
@[simp] theorem inc_sup (d : Dev) (f : Fld) : (inc d f).sup = d.sup := rfl
@[simp] theorem inc_tag (d : Dev) (f : Fld) : (inc d f).tag = d.tag := rfl
@[simp] theorem inc_wear (d : Dev) (f : Fld) : (inc d f).wear = d.wear := rfl
@[simp] theorem inc_bist (d : Dev) (f : Fld) : (inc d f).bist = d.bist := rfl
@[simp] theorem inc_cont (d : Dev) (f : Fld) : (inc d f).cont = d.cont := rfl
@[simp] theorem inc_out (d : Dev) (f : Fld) : (inc d f).out = d.out := rfl
@[simp] theorem rdB_inc (d : Dev) (f : Fld) (x : Nat) : rdB (inc d f) x = rdB d x := rfl
@[simp] theorem core_inc (d : Dev) (f : Fld) (x : Nat) : core (inc d f) x = core d x := rfl

@[simp] theorem wr64_clk (d : Dev) (lo hi : Fld) (v : Nat) : (wr64 d lo hi v).clk = d.clk := rfl
@[simp] theorem wr64_mem (d : Dev) (lo hi : Fld) (v : Nat) : (wr64 d lo hi v).mem = d.mem := rfl
@[simp] theorem wr64_latch (d : Dev) (lo hi : Fld) (v : Nat) : (wr64 d lo hi v).latch = d.latch := rfl
@[simp] theorem wr64_freeCtr (d : Dev) (lo hi : Fld) (v : Nat) : (wr64 d lo hi v).freeCtr = d.freeCtr := rfl
@[simp] theorem wr64_log (d : Dev) (lo hi : Fld) (v : Nat) : (wr64 d lo hi v).log = d.log := rfl
@[simp] theorem wr64_sp (d : Dev) (lo hi : Fld) (v : Nat) : (wr64 d lo hi v).sp = d.sp := rfl
@[simp] theorem wr64_commit (d : Dev) (lo hi : Fld) (v : Nat) : (wr64 d lo hi v).commit = d.commit := rfl
@[simp] theorem wr64_gw (d : Dev) (lo hi : Fld) (v : Nat) : (wr64 d lo hi v).gw = d.gw := rfl
@[simp] theorem wr64_cht (d : Dev) (lo hi : Fld) (v : Nat) : (wr64 d lo hi v).cht = d.cht := rfl
@[simp] theorem wr64_bob (d : Dev) (lo hi : Fld) (v : Nat) : (wr64 d lo hi v).bob = d.bob := rfl
@[simp] theorem wr64_seq (d : Dev) (lo hi : Fld) (v : Nat) : (wr64 d lo hi v).seq = d.seq := rfl
@[simp] theorem wr64_stor (d : Dev) (lo hi : Fld) (v : Nat) : (wr64 d lo hi v).stor = d.stor := rfl
@[simp] theorem wr64_strm (d : Dev) (lo hi : Fld) (v : Nat) : (wr64 d lo hi v).strm = d.strm := rfl
@[simp] theorem wr64_ptp (d : Dev) (lo hi : Fld) (v : Nat) : (wr64 d lo hi v).ptp = d.ptp := rfl
@[simp] theorem wr64_twin (d : Dev) (lo hi : Fld) (v : Nat) : (wr64 d lo hi v).twin = d.twin := rfl
@[simp] theorem wr64_cores (d : Dev) (lo hi : Fld) (v : Nat) : (wr64 d lo hi v).cores = d.cores := rfl
@[simp] theorem wr64_evc (d : Dev) (lo hi : Fld) (v : Nat) : (wr64 d lo hi v).evc = d.evc := rfl
@[simp] theorem wr64_ply (d : Dev) (lo hi : Fld) (v : Nat) : (wr64 d lo hi v).ply = d.ply := rfl
@[simp] theorem wr64_sup (d : Dev) (lo hi : Fld) (v : Nat) : (wr64 d lo hi v).sup = d.sup := rfl
@[simp] theorem wr64_tag (d : Dev) (lo hi : Fld) (v : Nat) : (wr64 d lo hi v).tag = d.tag := rfl
@[simp] theorem wr64_wear (d : Dev) (lo hi : Fld) (v : Nat) : (wr64 d lo hi v).wear = d.wear := rfl
@[simp] theorem wr64_bist (d : Dev) (lo hi : Fld) (v : Nat) : (wr64 d lo hi v).bist = d.bist := rfl
@[simp] theorem wr64_cont (d : Dev) (lo hi : Fld) (v : Nat) : (wr64 d lo hi v).cont = d.cont := rfl
@[simp] theorem wr64_out (d : Dev) (lo hi : Fld) (v : Nat) : (wr64 d lo hi v).out = d.out := rfl
@[simp] theorem rdB_wr64 (d : Dev) (lo hi : Fld) (v : Nat) (x : Nat) : rdB (wr64 d lo hi v) x = rdB d x := rfl
@[simp] theorem core_wr64 (d : Dev) (lo hi : Fld) (v : Nat) (x : Nat) : core (wr64 d lo hi v) x = core d x := rfl

@[simp] theorem wrB_clk (d : Dev) (a : Nat) (v : Byte) : (wrB d a v).clk = d.clk := rfl
@[simp] theorem wrB_regs (d : Dev) (a : Nat) (v : Byte) : (wrB d a v).regs = d.regs := rfl
@[simp] theorem wrB_latch (d : Dev) (a : Nat) (v : Byte) : (wrB d a v).latch = d.latch := rfl
@[simp] theorem wrB_freeCtr (d : Dev) (a : Nat) (v : Byte) : (wrB d a v).freeCtr = d.freeCtr := rfl
@[simp] theorem wrB_log (d : Dev) (a : Nat) (v : Byte) : (wrB d a v).log = d.log := rfl
@[simp] theorem wrB_sp (d : Dev) (a : Nat) (v : Byte) : (wrB d a v).sp = d.sp := rfl
@[simp] theorem wrB_commit (d : Dev) (a : Nat) (v : Byte) : (wrB d a v).commit = d.commit := rfl
@[simp] theorem wrB_gw (d : Dev) (a : Nat) (v : Byte) : (wrB d a v).gw = d.gw := rfl
@[simp] theorem wrB_cht (d : Dev) (a : Nat) (v : Byte) : (wrB d a v).cht = d.cht := rfl
@[simp] theorem wrB_bob (d : Dev) (a : Nat) (v : Byte) : (wrB d a v).bob = d.bob := rfl
@[simp] theorem wrB_seq (d : Dev) (a : Nat) (v : Byte) : (wrB d a v).seq = d.seq := rfl
@[simp] theorem wrB_stor (d : Dev) (a : Nat) (v : Byte) : (wrB d a v).stor = d.stor := rfl
@[simp] theorem wrB_strm (d : Dev) (a : Nat) (v : Byte) : (wrB d a v).strm = d.strm := rfl
@[simp] theorem wrB_ptp (d : Dev) (a : Nat) (v : Byte) : (wrB d a v).ptp = d.ptp := rfl
@[simp] theorem wrB_twin (d : Dev) (a : Nat) (v : Byte) : (wrB d a v).twin = d.twin := rfl
@[simp] theorem wrB_cores (d : Dev) (a : Nat) (v : Byte) : (wrB d a v).cores = d.cores := rfl
@[simp] theorem wrB_evc (d : Dev) (a : Nat) (v : Byte) : (wrB d a v).evc = d.evc := rfl
@[simp] theorem wrB_ply (d : Dev) (a : Nat) (v : Byte) : (wrB d a v).ply = d.ply := rfl
@[simp] theorem wrB_sup (d : Dev) (a : Nat) (v : Byte) : (wrB d a v).sup = d.sup := rfl
@[simp] theorem wrB_tag (d : Dev) (a : Nat) (v : Byte) : (wrB d a v).tag = d.tag := rfl
@[simp] theorem wrB_wear (d : Dev) (a : Nat) (v : Byte) : (wrB d a v).wear = d.wear := rfl
@[simp] theorem wrB_bist (d : Dev) (a : Nat) (v : Byte) : (wrB d a v).bist = d.bist := rfl
@[simp] theorem wrB_cont (d : Dev) (a : Nat) (v : Byte) : (wrB d a v).cont = d.cont := rfl
@[simp] theorem wrB_out (d : Dev) (a : Nat) (v : Byte) : (wrB d a v).out = d.out := rfl
@[simp] theorem rdw_wrB (d : Dev) (a : Nat) (v : Byte) (x : Nat) : rdw (wrB d a v) x = rdw d x := rfl
@[simp] theorem rd_wrB (d : Dev) (a : Nat) (v : Byte) (g : Fld) : rd (wrB d a v) g = rd d g := rfl
@[simp] theorem flag_wrB (d : Dev) (a : Nat) (v : Byte) (g : Fld) : flag (wrB d a v) g = flag d g := rfl
@[simp] theorem core_wrB (d : Dev) (a : Nat) (v : Byte) (x : Nat) : core (wrB d a v) x = core d x := rfl

@[simp] theorem wrBytes_clk (d : Dev) (a : Nat) (l : List Byte) : (wrBytes d a l).clk = d.clk := rfl
@[simp] theorem wrBytes_regs (d : Dev) (a : Nat) (l : List Byte) : (wrBytes d a l).regs = d.regs := rfl
@[simp] theorem wrBytes_latch (d : Dev) (a : Nat) (l : List Byte) : (wrBytes d a l).latch = d.latch := rfl
@[simp] theorem wrBytes_freeCtr (d : Dev) (a : Nat) (l : List Byte) : (wrBytes d a l).freeCtr = d.freeCtr := rfl
@[simp] theorem wrBytes_log (d : Dev) (a : Nat) (l : List Byte) : (wrBytes d a l).log = d.log := rfl
@[simp] theorem wrBytes_sp (d : Dev) (a : Nat) (l : List Byte) : (wrBytes d a l).sp = d.sp := rfl
@[simp] theorem wrBytes_commit (d : Dev) (a : Nat) (l : List Byte) : (wrBytes d a l).commit = d.commit := rfl
@[simp] theorem wrBytes_gw (d : Dev) (a : Nat) (l : List Byte) : (wrBytes d a l).gw = d.gw := rfl
@[simp] theorem wrBytes_cht (d : Dev) (a : Nat) (l : List Byte) : (wrBytes d a l).cht = d.cht := rfl
@[simp] theorem wrBytes_bob (d : Dev) (a : Nat) (l : List Byte) : (wrBytes d a l).bob = d.bob := rfl
@[simp] theorem wrBytes_seq (d : Dev) (a : Nat) (l : List Byte) : (wrBytes d a l).seq = d.seq := rfl
@[simp] theorem wrBytes_stor (d : Dev) (a : Nat) (l : List Byte) : (wrBytes d a l).stor = d.stor := rfl
@[simp] theorem wrBytes_strm (d : Dev) (a : Nat) (l : List Byte) : (wrBytes d a l).strm = d.strm := rfl
@[simp] theorem wrBytes_ptp (d : Dev) (a : Nat) (l : List Byte) : (wrBytes d a l).ptp = d.ptp := rfl
@[simp] theorem wrBytes_twin (d : Dev) (a : Nat) (l : List Byte) : (wrBytes d a l).twin = d.twin := rfl
@[simp] theorem wrBytes_cores (d : Dev) (a : Nat) (l : List Byte) : (wrBytes d a l).cores = d.cores := rfl
@[simp] theorem wrBytes_evc (d : Dev) (a : Nat) (l : List Byte) : (wrBytes d a l).evc = d.evc := rfl
@[simp] theorem wrBytes_ply (d : Dev) (a : Nat) (l : List Byte) : (wrBytes d a l).ply = d.ply := rfl
@[simp] theorem wrBytes_sup (d : Dev) (a : Nat) (l : List Byte) : (wrBytes d a l).sup = d.sup := rfl
@[simp] theorem wrBytes_tag (d : Dev) (a : Nat) (l : List Byte) : (wrBytes d a l).tag = d.tag := rfl
@[simp] theorem wrBytes_wear (d : Dev) (a : Nat) (l : List Byte) : (wrBytes d a l).wear = d.wear := rfl
@[simp] theorem wrBytes_bist (d : Dev) (a : Nat) (l : List Byte) : (wrBytes d a l).bist = d.bist := rfl
@[simp] theorem wrBytes_cont (d : Dev) (a : Nat) (l : List Byte) : (wrBytes d a l).cont = d.cont := rfl
@[simp] theorem wrBytes_out (d : Dev) (a : Nat) (l : List Byte) : (wrBytes d a l).out = d.out := rfl
@[simp] theorem rdw_wrBytes (d : Dev) (a : Nat) (l : List Byte) (x : Nat) : rdw (wrBytes d a l) x = rdw d x := rfl
@[simp] theorem rd_wrBytes (d : Dev) (a : Nat) (l : List Byte) (g : Fld) : rd (wrBytes d a l) g = rd d g := rfl
@[simp] theorem flag_wrBytes (d : Dev) (a : Nat) (l : List Byte) (g : Fld) : flag (wrBytes d a l) g = flag d g := rfl
@[simp] theorem core_wrBytes (d : Dev) (a : Nat) (l : List Byte) (x : Nat) : core (wrBytes d a l) x = core d x := rfl

@[simp] theorem freshNext_clk (d : Dev) : (freshNext d).clk = d.clk := rfl
@[simp] theorem freshNext_regs (d : Dev) : (freshNext d).regs = d.regs := rfl
@[simp] theorem freshNext_mem (d : Dev) : (freshNext d).mem = d.mem := rfl
@[simp] theorem freshNext_latch (d : Dev) : (freshNext d).latch = d.latch := rfl
@[simp] theorem freshNext_log (d : Dev) : (freshNext d).log = d.log := rfl
@[simp] theorem freshNext_sp (d : Dev) : (freshNext d).sp = d.sp := rfl
@[simp] theorem freshNext_commit (d : Dev) : (freshNext d).commit = d.commit := rfl
@[simp] theorem freshNext_gw (d : Dev) : (freshNext d).gw = d.gw := rfl
@[simp] theorem freshNext_cht (d : Dev) : (freshNext d).cht = d.cht := rfl
@[simp] theorem freshNext_bob (d : Dev) : (freshNext d).bob = d.bob := rfl
@[simp] theorem freshNext_seq (d : Dev) : (freshNext d).seq = d.seq := rfl
@[simp] theorem freshNext_stor (d : Dev) : (freshNext d).stor = d.stor := rfl
@[simp] theorem freshNext_strm (d : Dev) : (freshNext d).strm = d.strm := rfl
@[simp] theorem freshNext_ptp (d : Dev) : (freshNext d).ptp = d.ptp := rfl
@[simp] theorem freshNext_twin (d : Dev) : (freshNext d).twin = d.twin := rfl
@[simp] theorem freshNext_cores (d : Dev) : (freshNext d).cores = d.cores := rfl
@[simp] theorem freshNext_evc (d : Dev) : (freshNext d).evc = d.evc := rfl
@[simp] theorem freshNext_ply (d : Dev) : (freshNext d).ply = d.ply := rfl
@[simp] theorem freshNext_sup (d : Dev) : (freshNext d).sup = d.sup := rfl
@[simp] theorem freshNext_tag (d : Dev) : (freshNext d).tag = d.tag := rfl
@[simp] theorem freshNext_wear (d : Dev) : (freshNext d).wear = d.wear := rfl
@[simp] theorem freshNext_bist (d : Dev) : (freshNext d).bist = d.bist := rfl
@[simp] theorem freshNext_cont (d : Dev) : (freshNext d).cont = d.cont := rfl
@[simp] theorem freshNext_out (d : Dev) : (freshNext d).out = d.out := rfl
@[simp] theorem rdw_freshNext (d : Dev) (x : Nat) : rdw (freshNext d) x = rdw d x := rfl
@[simp] theorem rd_freshNext (d : Dev) (g : Fld) : rd (freshNext d) g = rd d g := rfl
@[simp] theorem flag_freshNext (d : Dev) (g : Fld) : flag (freshNext d) g = flag d g := rfl
@[simp] theorem rdB_freshNext (d : Dev) (x : Nat) : rdB (freshNext d) x = rdB d x := rfl
@[simp] theorem core_freshNext (d : Dev) (x : Nat) : core (freshNext d) x = core d x := rfl

@[simp] theorem atCycle_regs (c : Nat) (d : Dev) : (atCycle c d).regs = d.regs := rfl
@[simp] theorem atCycle_mem (c : Nat) (d : Dev) : (atCycle c d).mem = d.mem := rfl
@[simp] theorem atCycle_latch (c : Nat) (d : Dev) : (atCycle c d).latch = d.latch := rfl
@[simp] theorem atCycle_freeCtr (c : Nat) (d : Dev) : (atCycle c d).freeCtr = d.freeCtr := rfl
@[simp] theorem atCycle_log (c : Nat) (d : Dev) : (atCycle c d).log = d.log := rfl
@[simp] theorem atCycle_sp (c : Nat) (d : Dev) : (atCycle c d).sp = d.sp := rfl
@[simp] theorem atCycle_commit (c : Nat) (d : Dev) : (atCycle c d).commit = d.commit := rfl
@[simp] theorem atCycle_gw (c : Nat) (d : Dev) : (atCycle c d).gw = d.gw := rfl
@[simp] theorem atCycle_cht (c : Nat) (d : Dev) : (atCycle c d).cht = d.cht := rfl
@[simp] theorem atCycle_bob (c : Nat) (d : Dev) : (atCycle c d).bob = d.bob := rfl
@[simp] theorem atCycle_seq (c : Nat) (d : Dev) : (atCycle c d).seq = d.seq := rfl
@[simp] theorem atCycle_stor (c : Nat) (d : Dev) : (atCycle c d).stor = d.stor := rfl
@[simp] theorem atCycle_strm (c : Nat) (d : Dev) : (atCycle c d).strm = d.strm := rfl
@[simp] theorem atCycle_ptp (c : Nat) (d : Dev) : (atCycle c d).ptp = d.ptp := rfl
@[simp] theorem atCycle_twin (c : Nat) (d : Dev) : (atCycle c d).twin = d.twin := rfl
@[simp] theorem atCycle_cores (c : Nat) (d : Dev) : (atCycle c d).cores = d.cores := rfl
@[simp] theorem atCycle_evc (c : Nat) (d : Dev) : (atCycle c d).evc = d.evc := rfl
@[simp] theorem atCycle_ply (c : Nat) (d : Dev) : (atCycle c d).ply = d.ply := rfl
@[simp] theorem atCycle_sup (c : Nat) (d : Dev) : (atCycle c d).sup = d.sup := rfl
@[simp] theorem atCycle_tag (c : Nat) (d : Dev) : (atCycle c d).tag = d.tag := rfl
@[simp] theorem atCycle_wear (c : Nat) (d : Dev) : (atCycle c d).wear = d.wear := rfl
@[simp] theorem atCycle_bist (c : Nat) (d : Dev) : (atCycle c d).bist = d.bist := rfl
@[simp] theorem atCycle_cont (c : Nat) (d : Dev) : (atCycle c d).cont = d.cont := rfl
@[simp] theorem atCycle_out (c : Nat) (d : Dev) : (atCycle c d).out = d.out := rfl
@[simp] theorem rdw_atCycle (c : Nat) (d : Dev) (x : Nat) : rdw (atCycle c d) x = rdw d x := rfl
@[simp] theorem rd_atCycle (c : Nat) (d : Dev) (g : Fld) : rd (atCycle c d) g = rd d g := rfl
@[simp] theorem flag_atCycle (c : Nat) (d : Dev) (g : Fld) : flag (atCycle c d) g = flag d g := rfl
@[simp] theorem rdB_atCycle (c : Nat) (d : Dev) (x : Nat) : rdB (atCycle c d) x = rdB d x := rfl
@[simp] theorem core_atCycle (c : Nat) (d : Dev) (x : Nat) : core (atCycle c d) x = core d x := rfl

@[simp] theorem setCore_clk (p : Nat) (c : Core) (d : Dev) : (setCore p c d).clk = d.clk := rfl
@[simp] theorem setCore_regs (p : Nat) (c : Core) (d : Dev) : (setCore p c d).regs = d.regs := rfl
@[simp] theorem setCore_mem (p : Nat) (c : Core) (d : Dev) : (setCore p c d).mem = d.mem := rfl
@[simp] theorem setCore_latch (p : Nat) (c : Core) (d : Dev) : (setCore p c d).latch = d.latch := rfl
@[simp] theorem setCore_freeCtr (p : Nat) (c : Core) (d : Dev) : (setCore p c d).freeCtr = d.freeCtr := rfl
@[simp] theorem setCore_log (p : Nat) (c : Core) (d : Dev) : (setCore p c d).log = d.log := rfl
@[simp] theorem setCore_sp (p : Nat) (c : Core) (d : Dev) : (setCore p c d).sp = d.sp := rfl
@[simp] theorem setCore_commit (p : Nat) (c : Core) (d : Dev) : (setCore p c d).commit = d.commit := rfl
@[simp] theorem setCore_gw (p : Nat) (c : Core) (d : Dev) : (setCore p c d).gw = d.gw := rfl
@[simp] theorem setCore_cht (p : Nat) (c : Core) (d : Dev) : (setCore p c d).cht = d.cht := rfl
@[simp] theorem setCore_bob (p : Nat) (c : Core) (d : Dev) : (setCore p c d).bob = d.bob := rfl
@[simp] theorem setCore_seq (p : Nat) (c : Core) (d : Dev) : (setCore p c d).seq = d.seq := rfl
@[simp] theorem setCore_stor (p : Nat) (c : Core) (d : Dev) : (setCore p c d).stor = d.stor := rfl
@[simp] theorem setCore_strm (p : Nat) (c : Core) (d : Dev) : (setCore p c d).strm = d.strm := rfl
@[simp] theorem setCore_ptp (p : Nat) (c : Core) (d : Dev) : (setCore p c d).ptp = d.ptp := rfl
@[simp] theorem setCore_twin (p : Nat) (c : Core) (d : Dev) : (setCore p c d).twin = d.twin := rfl
@[simp] theorem setCore_evc (p : Nat) (c : Core) (d : Dev) : (setCore p c d).evc = d.evc := rfl
@[simp] theorem setCore_ply (p : Nat) (c : Core) (d : Dev) : (setCore p c d).ply = d.ply := rfl
@[simp] theorem setCore_sup (p : Nat) (c : Core) (d : Dev) : (setCore p c d).sup = d.sup := rfl
@[simp] theorem setCore_tag (p : Nat) (c : Core) (d : Dev) : (setCore p c d).tag = d.tag := rfl
@[simp] theorem setCore_wear (p : Nat) (c : Core) (d : Dev) : (setCore p c d).wear = d.wear := rfl
@[simp] theorem setCore_bist (p : Nat) (c : Core) (d : Dev) : (setCore p c d).bist = d.bist := rfl
@[simp] theorem setCore_cont (p : Nat) (c : Core) (d : Dev) : (setCore p c d).cont = d.cont := rfl
@[simp] theorem setCore_out (p : Nat) (c : Core) (d : Dev) : (setCore p c d).out = d.out := rfl
@[simp] theorem rdw_setCore (p : Nat) (c : Core) (d : Dev) (x : Nat) : rdw (setCore p c d) x = rdw d x := rfl
@[simp] theorem rd_setCore (p : Nat) (c : Core) (d : Dev) (g : Fld) : rd (setCore p c d) g = rd d g := rfl
@[simp] theorem flag_setCore (p : Nat) (c : Core) (d : Dev) (g : Fld) : flag (setCore p c d) g = flag d g := rfl
@[simp] theorem rdB_setCore (p : Nat) (c : Core) (d : Dev) (x : Nat) : rdB (setCore p c d) x = rdB d x := rfl

@[simp] theorem onCore_clk (p : Nat) (f : Core → Core) (d : Dev) : (onCore p f d).clk = d.clk := rfl
@[simp] theorem onCore_regs (p : Nat) (f : Core → Core) (d : Dev) : (onCore p f d).regs = d.regs := rfl
@[simp] theorem onCore_mem (p : Nat) (f : Core → Core) (d : Dev) : (onCore p f d).mem = d.mem := rfl
@[simp] theorem onCore_latch (p : Nat) (f : Core → Core) (d : Dev) : (onCore p f d).latch = d.latch := rfl
@[simp] theorem onCore_freeCtr (p : Nat) (f : Core → Core) (d : Dev) : (onCore p f d).freeCtr = d.freeCtr := rfl
@[simp] theorem onCore_log (p : Nat) (f : Core → Core) (d : Dev) : (onCore p f d).log = d.log := rfl
@[simp] theorem onCore_sp (p : Nat) (f : Core → Core) (d : Dev) : (onCore p f d).sp = d.sp := rfl
@[simp] theorem onCore_commit (p : Nat) (f : Core → Core) (d : Dev) : (onCore p f d).commit = d.commit := rfl
@[simp] theorem onCore_gw (p : Nat) (f : Core → Core) (d : Dev) : (onCore p f d).gw = d.gw := rfl
@[simp] theorem onCore_cht (p : Nat) (f : Core → Core) (d : Dev) : (onCore p f d).cht = d.cht := rfl
@[simp] theorem onCore_bob (p : Nat) (f : Core → Core) (d : Dev) : (onCore p f d).bob = d.bob := rfl
@[simp] theorem onCore_seq (p : Nat) (f : Core → Core) (d : Dev) : (onCore p f d).seq = d.seq := rfl
@[simp] theorem onCore_stor (p : Nat) (f : Core → Core) (d : Dev) : (onCore p f d).stor = d.stor := rfl
@[simp] theorem onCore_strm (p : Nat) (f : Core → Core) (d : Dev) : (onCore p f d).strm = d.strm := rfl
@[simp] theorem onCore_ptp (p : Nat) (f : Core → Core) (d : Dev) : (onCore p f d).ptp = d.ptp := rfl
@[simp] theorem onCore_twin (p : Nat) (f : Core → Core) (d : Dev) : (onCore p f d).twin = d.twin := rfl
@[simp] theorem onCore_evc (p : Nat) (f : Core → Core) (d : Dev) : (onCore p f d).evc = d.evc := rfl
@[simp] theorem onCore_ply (p : Nat) (f : Core → Core) (d : Dev) : (onCore p f d).ply = d.ply := rfl
@[simp] theorem onCore_sup (p : Nat) (f : Core → Core) (d : Dev) : (onCore p f d).sup = d.sup := rfl
@[simp] theorem onCore_tag (p : Nat) (f : Core → Core) (d : Dev) : (onCore p f d).tag = d.tag := rfl
@[simp] theorem onCore_wear (p : Nat) (f : Core → Core) (d : Dev) : (onCore p f d).wear = d.wear := rfl
@[simp] theorem onCore_bist (p : Nat) (f : Core → Core) (d : Dev) : (onCore p f d).bist = d.bist := rfl
@[simp] theorem onCore_cont (p : Nat) (f : Core → Core) (d : Dev) : (onCore p f d).cont = d.cont := rfl
@[simp] theorem onCore_out (p : Nat) (f : Core → Core) (d : Dev) : (onCore p f d).out = d.out := rfl
@[simp] theorem rdw_onCore (p : Nat) (f : Core → Core) (d : Dev) (x : Nat) : rdw (onCore p f d) x = rdw d x := rfl
@[simp] theorem rd_onCore (p : Nat) (f : Core → Core) (d : Dev) (g : Fld) : rd (onCore p f d) g = rd d g := rfl
@[simp] theorem flag_onCore (p : Nat) (f : Core → Core) (d : Dev) (g : Fld) : flag (onCore p f d) g = flag d g := rfl
@[simp] theorem rdB_onCore (p : Nat) (f : Core → Core) (d : Dev) (x : Nat) : rdB (onCore p f d) x = rdB d x := rfl

@[simp] theorem onPly_clk (p : Nat) (f : PlySt → PlySt) (d : Dev) : (onPly p f d).clk = d.clk := rfl
@[simp] theorem onPly_regs (p : Nat) (f : PlySt → PlySt) (d : Dev) : (onPly p f d).regs = d.regs := rfl
@[simp] theorem onPly_mem (p : Nat) (f : PlySt → PlySt) (d : Dev) : (onPly p f d).mem = d.mem := rfl
@[simp] theorem onPly_latch (p : Nat) (f : PlySt → PlySt) (d : Dev) : (onPly p f d).latch = d.latch := rfl
@[simp] theorem onPly_freeCtr (p : Nat) (f : PlySt → PlySt) (d : Dev) : (onPly p f d).freeCtr = d.freeCtr := rfl
@[simp] theorem onPly_log (p : Nat) (f : PlySt → PlySt) (d : Dev) : (onPly p f d).log = d.log := rfl
@[simp] theorem onPly_sp (p : Nat) (f : PlySt → PlySt) (d : Dev) : (onPly p f d).sp = d.sp := rfl
@[simp] theorem onPly_commit (p : Nat) (f : PlySt → PlySt) (d : Dev) : (onPly p f d).commit = d.commit := rfl
@[simp] theorem onPly_gw (p : Nat) (f : PlySt → PlySt) (d : Dev) : (onPly p f d).gw = d.gw := rfl
@[simp] theorem onPly_cht (p : Nat) (f : PlySt → PlySt) (d : Dev) : (onPly p f d).cht = d.cht := rfl
@[simp] theorem onPly_bob (p : Nat) (f : PlySt → PlySt) (d : Dev) : (onPly p f d).bob = d.bob := rfl
@[simp] theorem onPly_seq (p : Nat) (f : PlySt → PlySt) (d : Dev) : (onPly p f d).seq = d.seq := rfl
@[simp] theorem onPly_stor (p : Nat) (f : PlySt → PlySt) (d : Dev) : (onPly p f d).stor = d.stor := rfl
@[simp] theorem onPly_strm (p : Nat) (f : PlySt → PlySt) (d : Dev) : (onPly p f d).strm = d.strm := rfl
@[simp] theorem onPly_ptp (p : Nat) (f : PlySt → PlySt) (d : Dev) : (onPly p f d).ptp = d.ptp := rfl
@[simp] theorem onPly_twin (p : Nat) (f : PlySt → PlySt) (d : Dev) : (onPly p f d).twin = d.twin := rfl
@[simp] theorem onPly_cores (p : Nat) (f : PlySt → PlySt) (d : Dev) : (onPly p f d).cores = d.cores := rfl
@[simp] theorem onPly_evc (p : Nat) (f : PlySt → PlySt) (d : Dev) : (onPly p f d).evc = d.evc := rfl
@[simp] theorem onPly_sup (p : Nat) (f : PlySt → PlySt) (d : Dev) : (onPly p f d).sup = d.sup := rfl
@[simp] theorem onPly_tag (p : Nat) (f : PlySt → PlySt) (d : Dev) : (onPly p f d).tag = d.tag := rfl
@[simp] theorem onPly_wear (p : Nat) (f : PlySt → PlySt) (d : Dev) : (onPly p f d).wear = d.wear := rfl
@[simp] theorem onPly_bist (p : Nat) (f : PlySt → PlySt) (d : Dev) : (onPly p f d).bist = d.bist := rfl
@[simp] theorem onPly_cont (p : Nat) (f : PlySt → PlySt) (d : Dev) : (onPly p f d).cont = d.cont := rfl
@[simp] theorem onPly_out (p : Nat) (f : PlySt → PlySt) (d : Dev) : (onPly p f d).out = d.out := rfl
@[simp] theorem rdw_onPly (p : Nat) (f : PlySt → PlySt) (d : Dev) (x : Nat) : rdw (onPly p f d) x = rdw d x := rfl
@[simp] theorem rd_onPly (p : Nat) (f : PlySt → PlySt) (d : Dev) (g : Fld) : rd (onPly p f d) g = rd d g := rfl
@[simp] theorem flag_onPly (p : Nat) (f : PlySt → PlySt) (d : Dev) (g : Fld) : flag (onPly p f d) g = flag d g := rfl
@[simp] theorem rdB_onPly (p : Nat) (f : PlySt → PlySt) (d : Dev) (x : Nat) : rdB (onPly p f d) x = rdB d x := rfl
@[simp] theorem core_onPly (p : Nat) (f : PlySt → PlySt) (d : Dev) (x : Nat) : core (onPly p f d) x = core d x := rfl

@[simp] theorem onTwin_clk (f : TwinSt → TwinSt) (d : Dev) : (onTwin f d).clk = d.clk := rfl
@[simp] theorem onTwin_regs (f : TwinSt → TwinSt) (d : Dev) : (onTwin f d).regs = d.regs := rfl
@[simp] theorem onTwin_mem (f : TwinSt → TwinSt) (d : Dev) : (onTwin f d).mem = d.mem := rfl
@[simp] theorem onTwin_latch (f : TwinSt → TwinSt) (d : Dev) : (onTwin f d).latch = d.latch := rfl
@[simp] theorem onTwin_freeCtr (f : TwinSt → TwinSt) (d : Dev) : (onTwin f d).freeCtr = d.freeCtr := rfl
@[simp] theorem onTwin_log (f : TwinSt → TwinSt) (d : Dev) : (onTwin f d).log = d.log := rfl
@[simp] theorem onTwin_sp (f : TwinSt → TwinSt) (d : Dev) : (onTwin f d).sp = d.sp := rfl
@[simp] theorem onTwin_commit (f : TwinSt → TwinSt) (d : Dev) : (onTwin f d).commit = d.commit := rfl
@[simp] theorem onTwin_gw (f : TwinSt → TwinSt) (d : Dev) : (onTwin f d).gw = d.gw := rfl
@[simp] theorem onTwin_cht (f : TwinSt → TwinSt) (d : Dev) : (onTwin f d).cht = d.cht := rfl
@[simp] theorem onTwin_bob (f : TwinSt → TwinSt) (d : Dev) : (onTwin f d).bob = d.bob := rfl
@[simp] theorem onTwin_seq (f : TwinSt → TwinSt) (d : Dev) : (onTwin f d).seq = d.seq := rfl
@[simp] theorem onTwin_stor (f : TwinSt → TwinSt) (d : Dev) : (onTwin f d).stor = d.stor := rfl
@[simp] theorem onTwin_strm (f : TwinSt → TwinSt) (d : Dev) : (onTwin f d).strm = d.strm := rfl
@[simp] theorem onTwin_ptp (f : TwinSt → TwinSt) (d : Dev) : (onTwin f d).ptp = d.ptp := rfl
@[simp] theorem onTwin_cores (f : TwinSt → TwinSt) (d : Dev) : (onTwin f d).cores = d.cores := rfl
@[simp] theorem onTwin_evc (f : TwinSt → TwinSt) (d : Dev) : (onTwin f d).evc = d.evc := rfl
@[simp] theorem onTwin_ply (f : TwinSt → TwinSt) (d : Dev) : (onTwin f d).ply = d.ply := rfl
@[simp] theorem onTwin_sup (f : TwinSt → TwinSt) (d : Dev) : (onTwin f d).sup = d.sup := rfl
@[simp] theorem onTwin_tag (f : TwinSt → TwinSt) (d : Dev) : (onTwin f d).tag = d.tag := rfl
@[simp] theorem onTwin_wear (f : TwinSt → TwinSt) (d : Dev) : (onTwin f d).wear = d.wear := rfl
@[simp] theorem onTwin_bist (f : TwinSt → TwinSt) (d : Dev) : (onTwin f d).bist = d.bist := rfl
@[simp] theorem onTwin_cont (f : TwinSt → TwinSt) (d : Dev) : (onTwin f d).cont = d.cont := rfl
@[simp] theorem onTwin_out (f : TwinSt → TwinSt) (d : Dev) : (onTwin f d).out = d.out := rfl
@[simp] theorem rdw_onTwin (f : TwinSt → TwinSt) (d : Dev) (x : Nat) : rdw (onTwin f d) x = rdw d x := rfl
@[simp] theorem rd_onTwin (f : TwinSt → TwinSt) (d : Dev) (g : Fld) : rd (onTwin f d) g = rd d g := rfl
@[simp] theorem flag_onTwin (f : TwinSt → TwinSt) (d : Dev) (g : Fld) : flag (onTwin f d) g = flag d g := rfl
@[simp] theorem rdB_onTwin (f : TwinSt → TwinSt) (d : Dev) (x : Nat) : rdB (onTwin f d) x = rdB d x := rfl
@[simp] theorem core_onTwin (f : TwinSt → TwinSt) (d : Dev) (x : Nat) : core (onTwin f d) x = core d x := rfl

@[simp] theorem onBist_clk (f : BistSt → BistSt) (d : Dev) : (onBist f d).clk = d.clk := rfl
@[simp] theorem onBist_regs (f : BistSt → BistSt) (d : Dev) : (onBist f d).regs = d.regs := rfl
@[simp] theorem onBist_mem (f : BistSt → BistSt) (d : Dev) : (onBist f d).mem = d.mem := rfl
@[simp] theorem onBist_latch (f : BistSt → BistSt) (d : Dev) : (onBist f d).latch = d.latch := rfl
@[simp] theorem onBist_freeCtr (f : BistSt → BistSt) (d : Dev) : (onBist f d).freeCtr = d.freeCtr := rfl
@[simp] theorem onBist_log (f : BistSt → BistSt) (d : Dev) : (onBist f d).log = d.log := rfl
@[simp] theorem onBist_sp (f : BistSt → BistSt) (d : Dev) : (onBist f d).sp = d.sp := rfl
@[simp] theorem onBist_commit (f : BistSt → BistSt) (d : Dev) : (onBist f d).commit = d.commit := rfl
@[simp] theorem onBist_gw (f : BistSt → BistSt) (d : Dev) : (onBist f d).gw = d.gw := rfl
@[simp] theorem onBist_cht (f : BistSt → BistSt) (d : Dev) : (onBist f d).cht = d.cht := rfl
@[simp] theorem onBist_bob (f : BistSt → BistSt) (d : Dev) : (onBist f d).bob = d.bob := rfl
@[simp] theorem onBist_seq (f : BistSt → BistSt) (d : Dev) : (onBist f d).seq = d.seq := rfl
@[simp] theorem onBist_stor (f : BistSt → BistSt) (d : Dev) : (onBist f d).stor = d.stor := rfl
@[simp] theorem onBist_strm (f : BistSt → BistSt) (d : Dev) : (onBist f d).strm = d.strm := rfl
@[simp] theorem onBist_ptp (f : BistSt → BistSt) (d : Dev) : (onBist f d).ptp = d.ptp := rfl
@[simp] theorem onBist_twin (f : BistSt → BistSt) (d : Dev) : (onBist f d).twin = d.twin := rfl
@[simp] theorem onBist_cores (f : BistSt → BistSt) (d : Dev) : (onBist f d).cores = d.cores := rfl
@[simp] theorem onBist_evc (f : BistSt → BistSt) (d : Dev) : (onBist f d).evc = d.evc := rfl
@[simp] theorem onBist_ply (f : BistSt → BistSt) (d : Dev) : (onBist f d).ply = d.ply := rfl
@[simp] theorem onBist_sup (f : BistSt → BistSt) (d : Dev) : (onBist f d).sup = d.sup := rfl
@[simp] theorem onBist_tag (f : BistSt → BistSt) (d : Dev) : (onBist f d).tag = d.tag := rfl
@[simp] theorem onBist_wear (f : BistSt → BistSt) (d : Dev) : (onBist f d).wear = d.wear := rfl
@[simp] theorem onBist_cont (f : BistSt → BistSt) (d : Dev) : (onBist f d).cont = d.cont := rfl
@[simp] theorem onBist_out (f : BistSt → BistSt) (d : Dev) : (onBist f d).out = d.out := rfl
@[simp] theorem rdw_onBist (f : BistSt → BistSt) (d : Dev) (x : Nat) : rdw (onBist f d) x = rdw d x := rfl
@[simp] theorem rd_onBist (f : BistSt → BistSt) (d : Dev) (g : Fld) : rd (onBist f d) g = rd d g := rfl
@[simp] theorem flag_onBist (f : BistSt → BistSt) (d : Dev) (g : Fld) : flag (onBist f d) g = flag d g := rfl
@[simp] theorem rdB_onBist (f : BistSt → BistSt) (d : Dev) (x : Nat) : rdB (onBist f d) x = rdB d x := rfl
@[simp] theorem core_onBist (f : BistSt → BistSt) (d : Dev) (x : Nat) : core (onBist f d) x = core d x := rfl

/-- The pair just set reads back. -/
@[simp] theorem core_setCore_same (p : Nat) (c : Core) (d : Dev) : core (setCore p c d) p = c := by simp [core, setCore]

/-- Another pair is left alone. -/
theorem core_setCore_ne {p q : Nat} (c : Core) (d : Dev) (h : q ≠ p) : core (setCore p c d) q = core d q := by
  simp [core, setCore, tget_tset_ne _ _ _ h]

@[simp] theorem core_onCore_same (p : Nat) (f : Core → Core) (d : Dev) : core (onCore p f d) p = f (core d p) := by
  simp [onCore]

theorem core_onCore_ne {p q : Nat} (f : Core → Core) (d : Dev) (h : q ≠ p) : core (onCore p f d) q = core d q :=
  core_setCore_ne _ d h

@[simp] theorem ply_onPly_same (p : Nat) (f : PlySt → PlySt) (d : Dev) : ply (onPly p f d) p = f (ply d p) := by
  simp [ply, onPly]

@[simp] theorem twin_onTwin (f : TwinSt → TwinSt) (d : Dev) : (onTwin f d).twin = f d.twin := rfl

@[simp] theorem bist_onBist (f : BistSt → BistSt) (d : Dev) : (onBist f d).bist = f d.bist := rfl

@[simp] theorem clk_atCycle_frame (c : Nat) (d : Dev) : (atCycle c d).clk.frame = d.clk.frame := rfl

@[simp] theorem clk_atCycle_cycle (c : Nat) (d : Dev) : (atCycle c d).clk.cycle = c := rfl

/-- A port just put reads back. -/
@[simp] theorem port_put_same (c : Core) (id : Nat) (v : Word) : (c.put id v).port id = v := by simp [Core.port, Core.put]

/-- Another port is left alone. -/
theorem port_put_ne {c : Core} {id j : Nat} (v : Word) (h : j ≠ id) : (c.put id v).port j = c.port j := by
  simp [Core.port, Core.put, tget_tset_ne _ _ _ h]

/-- The state, the lines and the hold of a role in a new state (R387, R389). -/
@[simp] theorem roleIn_state (st : TwinState) (h : Bool) (r : Role) : (roleIn st h r).state = st := rfl
@[simp] theorem roleIn_ownLow (st : TwinState) (h : Bool) (r : Role) : (roleIn st h r).ownLow = ownsTdm st := rfl
@[simp] theorem roleIn_beating (st : TwinState) (h : Bool) (r : Role) : (roleIn st h r).beating = isLive st := rfl
@[simp] theorem roleIn_hold (st : TwinState) (h : Bool) (r : Role) : (roleIn st h r).hold = h := rfl
@[simp] theorem roleIn_beatLevel (st : TwinState) (h : Bool) (r : Role) : (roleIn st h r).beatLevel = r.beatLevel := rfl

@[simp] theorem onD_fst (f : Dev → Dev) (x : RD) : (onD f x).1 = x.1 := rfl
@[simp] theorem onD_snd (f : Dev → Dev) (x : RD) : (onD f x).2 = f x.2 := rfl

end Sys2Proof.Machine
end

