-- ==== Sys2Proof/Laws/Ops.lean ====
section
/-! SUPPORT. What the shared operations do, said once: the gates of a command, events, counters and error capture. -/

namespace Sys2Proof.Machine

/-- A command on the device of a module that is on. -/
theorem onDev_awake {s : State} (h : awake s.dev = true) (f : Dev → Dev) : onDev s f = .next { s with dev := f s.dev } := by
  simp [onDev, h]

/-- A command on the device of a module that is off changes nothing. -/
theorem onDev_off {s : State} (h : awake s.dev = false) (f : Dev → Dev) : onDev s f = .next s := by simp [onDev, h]

/-- A command on the role and the device of a module that is on. -/
theorem onBoth_awake {s : State} (h : awake s.dev = true) (f : Role × Dev → Role × Dev) :
    onBoth s f = .next { s with role := (f (s.role, s.dev)).1, dev := (f (s.role, s.dev)).2 } := by simp [onBoth, h]

/-- A command on the role and the device of a module that is off changes nothing. -/
theorem onBoth_off {s : State} (h : awake s.dev = false) (f : Role × Dev → Role × Dev) : onBoth s f = .next s := by
  simp [onBoth, h]

/-- Everything `onDev` can do: the queue and the role stay. -/
theorem onDev_cases {s t : State} {f : Dev → Dev} (h : onDev s f = .next t) :
    t.pending = s.pending ∧ t.role = s.role ∧ t.dev = if awake s.dev then f s.dev else s.dev := by
  unfold onDev at h; cases h; exact ⟨rfl, rfl, rfl⟩

/-- Everything `onBoth` can do: the queue stays. -/
theorem onBoth_cases {s t : State} {f : Role × Dev → Role × Dev} (h : onBoth s f = .next t) :
    t.pending = s.pending ∧ t.role = (if awake s.dev then (f (s.role, s.dev)).1 else s.role) ∧
      t.dev = if awake s.dev then (f (s.role, s.dev)).2 else s.dev := by
  unfold onBoth at h
  split at h <;> cases h <;> simp_all

/-- Everything `onPower` can do: the queue stays. -/
theorem onPower_cases {s t : State} {f : Role × Dev → Role × Dev} (h : onPower s f = .next t) :
    t.pending = s.pending ∧ t.role = (f (s.role, s.dev)).1 ∧ t.dev = (f (s.role, s.dev)).2 := by
  unfold onPower at h; cases h; exact ⟨rfl, rfl, rfl⟩

/-- A counter below its largest value goes up by one, and stays there (R51). -/
theorem rd_inc (d : Dev) {f : Fld} (h : f.lo ≤ f.hi) (hh : f.hi < 32) : rd (inc d f) f = min (rd d f + 1) (fldMax f) := by
  unfold inc incN
  rw [rd_wr_same d _ h hh]
  apply Nat.mod_eq_of_lt
  have : fldMax f < 2 ^ (f.hi + 1 - f.lo) := by unfold fldMax; have := Nat.two_pow_pos (f.hi + 1 - f.lo); omega
  omega

/-- A counter leaves other words alone. -/
theorem rd_inc_off (d : Dev) {f g : Fld} (h : f.off ≠ g.off) : rd (inc d g) f = rd d f := rd_wr_off d _ h

/-- The twin role after a state is entered: a hold stays where the state does. -/
theorem enterHold_role (st : TwinState) (hold : Bool) (sev : Nat) (x : RD) :
    (enterHold st hold sev x).1 = roleIn st (hold || (decide (x.1.state = st) && x.1.hold)) x.1 := by
  by_cases h : x.1.state = st <;> simp [enterHold, h]

/-- A module that found no valid image enters no twin state (R414). -/
@[simp] theorem enter_role (st : TwinState) (sev : Nat) (x : RD) :
    (enter st sev x).1 = if x.2.bist.bootFailed then x.1 else roleIn st (decide (x.1.state = st) && x.1.hold) x.1 := by
  by_cases h : x.2.bist.bootFailed <;> simp [enter, h, enterHold_role]

/-- A role just entered has the lines its state gives it (R387, R389). -/
theorem roleOk_roleIn (st : TwinState) (hold : Bool) (r : Role) : Safety.roleOk (roleIn st hold r) = true := by
  simp [Safety.roleOk]

end Sys2Proof.Machine
end

