-- ==== Sys2Proof/Laws/Issue.lean ====
section
/-! SUPPORT. What the issue of a bundle of one move does, said once for every unit but the CU. -/

namespace Sys2Proof.Machine

open Sys2Proof.Safety

/-! ### Fields of a pair that counting and going on leave alone -/

section Fields
variable (c : Core)

@[simp] theorem pipe_put (id : Nat) (v : Word) : (c.put id v).pipe = c.pipe := rfl
@[simp] theorem ext_put (id : Nat) (v : Word) : (c.put id v).ext = c.ext := rfl
@[simp] theorem wb_put (id : Nat) (v : Word) : (c.put id v).wb = c.wb := rfl

/-- The fields an issue's bookkeeping keeps: results on their way, iterations, EXT work, buffers, caches,
accumulators, save slots, regions, the waits and the synchronised writes. -/
def SameWork (a b : Core) : Prop :=
  a.pipe = b.pipe ∧ a.ext = b.ext ∧ a.wb = b.wb ∧ a.div = b.div ∧ a.fpi = b.fpi ∧ a.acc = b.acc ∧ a.dcache = b.dcache ∧
    a.icache = b.icache ∧ a.save = b.save ∧ a.regions = b.regions ∧ a.sync = b.sync ∧ a.waiting = b.waiting ∧ a.fence = b.fence

theorem SameWork.refl : SameWork c c := ⟨rfl, rfl, rfl, rfl, rfl, rfl, rfl, rfl, rfl, rfl, rfl, rfl, rfl⟩

theorem SameWork.trans {a b c : Core} (h : SameWork a b) (k : SameWork b c) : SameWork a c := by
  obtain ⟨h1, h2, h3, h4, h5, h6, h7, h8, h9, h10, h11, h12, h13⟩ := h
  obtain ⟨k1, k2, k3, k4, k5, k6, k7, k8, k9, k10, k11, k12, k13⟩ := k
  exact ⟨h1.trans k1, h2.trans k2, h3.trans k3, h4.trans k4, h5.trans k5, h6.trans k6, h7.trans k7, h8.trans k8,
    h9.trans k9, h10.trans k10, h11.trans k11, h12.trans k12, h13.trans k13⟩

theorem SameWork.waiting {a b : Core} (h : SameWork a b) : a.waiting = b.waiting := h.2.2.2.2.2.2.2.2.2.2.2.1

theorem sameWork_put (id : Nat) (v : Word) : SameWork (c.put id v) c := ⟨rfl, rfl, rfl, rfl, rfl, rfl, rfl, rfl, rfl, rfl, rfl, rfl, rfl⟩

theorem sameWork_armed (l : Table Nat) : SameWork { c with armed := l } c :=
  ⟨rfl, rfl, rfl, rfl, rfl, rfl, rfl, rfl, rfl, rfl, rfl, rfl, rfl⟩

theorem sameWork_setLoop (k r s : Nat) : SameWork (c.setLoop k r s) c := sameWork_put ..

theorem sameWork_count (id n : Nat) : SameWork (c.count id n) c := by
  unfold Core.count; split <;> exact sameWork_put ..

theorem sameWork_spend (n : Nat) : SameWork (c.spend n) c := sameWork_count ..

theorem sameWork_goto (a : Nat) : SameWork (c.goto a) c := ⟨rfl, rfl, rfl, rfl, rfl, rfl, rfl, rfl, rfl, rfl, rfl, rfl, rfl⟩

theorem sameWork_loopCost (k : Nat) : SameWork (c.loopCost k) c := by
  simp only [Core.loopCost]
  split
  · exact (sameWork_count ..).trans ((sameWork_spend ..).trans ⟨rfl, rfl, rfl, rfl, rfl, rfl, rfl, rfl, rfl, rfl, rfl, rfl, rfl⟩)
  · exact ⟨rfl, rfl, rfl, rfl, rfl, rfl, rfl, rfl, rfl, rfl, rfl, rfl, rfl⟩

theorem sameWork_loopBack (pc : Nat) (l : List Nat) : ∀ c : Core, SameWork (Core.loopBack pc l c).2 c := by
  induction l with
  | nil => intro c; exact .refl c
  | cons k r ih =>
    intro c
    unfold Core.loopBack
    split
    · split
      · exact (sameWork_loopCost ..).trans (sameWork_put ..)
      · split
        · exact (ih _).trans ((sameWork_armed ..).trans (sameWork_setLoop ..))
        · exact ih c
    · exact ih c

theorem sameWork_fall (pc : Nat) : SameWork (cuEffect pc none c) c := by
  simp only [cuEffect]
  have h := sameWork_loopBack pc [2, 1, 0] c
  split
  · rename_i a c1 he
    rw [he] at h
    exact (sameWork_goto ..).trans h
  · rename_i c1 he
    rw [he] at h
    exact .trans ⟨rfl, rfl, rfl, rfl, rfl, rfl, rfl, rfl, rfl, rfl, rfl, rfl, rfl⟩ h

end Fields

/-! ### Ports that the issue itself leaves alone -/

/-- Two pairs hold the same in every port but those an issue counts in. -/
def SamePorts (a b : Core) : Prop := ∀ id, bookkeeping id = false → a.port id = b.port id

theorem SamePorts.trans {a b c : Core} (h : SamePorts a b) (k : SamePorts b c) : SamePorts a c :=
  fun id hi => (h id hi).trans (k id hi)

theorem samePorts_put (c : Core) {k : Nat} (v : Word) (h : bookkeeping k = true) : SamePorts (c.put k v) c := by
  intro id hi
  have hne : id ≠ k := by rintro rfl; simp [h] at hi
  simp [Core.put, Core.port, tget_tset_ne _ _ _ hne]

theorem samePorts_armed (c : Core) (l : Table Nat) : SamePorts { c with armed := l } c := fun _ _ => rfl

theorem samePorts_count (c : Core) {k : Nat} (n : Nat) (h : bookkeeping k = true) : SamePorts (c.count k n) c := by
  unfold Core.count; split <;> exact samePorts_put _ _ h

theorem samePorts_spend (c : Core) (n : Nat) : SamePorts (c.spend n) c := samePorts_count c n (by decide)

theorem book_loop {k : Nat} (h : k < 3) : bookkeeping (0x3CC + 8 * k) = true := by
  interval_cases k <;> decide

theorem samePorts_setLoop (c : Core) {k : Nat} (r s : Nat) (h : k < 3) : SamePorts (c.setLoop k r s) c :=
  samePorts_put c _ (book_loop h)

theorem samePorts_loopCost (c : Core) (k : Nat) : SamePorts (c.loopCost k) c := by
  simp only [Core.loopCost]
  split
  · exact (samePorts_count _ _ (by decide)).trans ((samePorts_spend _ _).trans (fun _ _ => rfl))
  · exact fun _ _ => rfl

theorem samePorts_loopBack (pc : Nat) (l : List Nat) (hl : ∀ k ∈ l, k < 3) :
    ∀ c : Core, SamePorts (Core.loopBack pc l c).2 c := by
  induction l with
  | nil => exact fun c _ _ => rfl
  | cons k r ih =>
    intro c
    have hk := hl k (by simp)
    have hr : ∀ k ∈ r, k < 3 := fun x hx => hl x (by simp [hx])
    unfold Core.loopBack
    split
    · split
      · exact (samePorts_loopCost _ _).trans (samePorts_setLoop _ _ _ hk)
      · split
        · exact (ih hr _).trans ((samePorts_armed _ _).trans (samePorts_setLoop _ _ _ hk))
        · exact ih hr c
    · exact ih hr c

theorem samePorts_fall (c : Core) (pc : Nat) : SamePorts (cuEffect pc none c) c := by
  simp only [cuEffect]
  have h := samePorts_loopBack pc [2, 1, 0] (by decide) c
  split
  · rename_i a c1 he
    rw [he] at h
    exact fun id hi => h id hi
  · rename_i c1 he
    rw [he] at h
    exact fun id hi => h id hi

/-! ### One move -/

theorem winners_one {port : Nat} {v : Word} {sat : Bool} (h : portKind port = .trigger) :
    winners (oneMove port v sat) = oneMove port v sat := by
  simp [winners, oneMove, h]

theorem operandMoves_one {port : Nat} {v : Word} {sat : Bool} (c : Core) (h : portKind port = .trigger) :
    operandMoves (oneMove port v sat) c = c := by
  simp [operandMoves, oneMove, h]

/-- The device a trigger acts on: pair `p` as its bundle meets it. -/
def trigDev (p : Nat) (d : Dev) : Dev := setCore p (metCore p d) (met p d)

theorem doIf_freshNext_keeps (b : Bool) (d : Dev) :
    (doIf b freshNext d).regs = d.regs ∧ (doIf b freshNext d).mem = d.mem ∧ ∀ q, core (doIf b freshNext d) q = core d q := by
  cases b <;> exact ⟨rfl, rfl, fun _ => rfl⟩

@[simp] theorem eccCorrected_zero (p : Nat) (d : Dev) : eccCorrected p 0 d = d := rfl

/-- What the issue of one trigger does to its pair after the unit's operation: the bookkeeping `g`, then the holds. -/
theorem issueOne_trigger {p port : Nat} {v : Word} {sat : Bool} {d : Dev} (hr : running d p = true)
    (hu : unheld (core d p) = true) (ht : portKind port = .trigger) (hc : cuControl port = false)
    (hf : (lsuFault (metCore p d) (oneMove port v sat)).isNone = true)
    (hs : stallsSb (met p d) (metCore p d) (oneMove port v sat) = false)
    (he : lsuCorrects (metCore p d) (oneMove port v sat) = 0) :
    ∃ g, issueOne p port v sat d =
        settleHolds p (onCore p g (doIf (spindleMeets (met p d) p (oneMove port v sat)) freshNext
          (trigUnit p port v sat (trigDev p d)))) ∧
      ∀ c, SameWork (g c) c ∧ SamePorts (g c) c := by
  have h5 : port ≠ 0x3C5 := by rintro rfl; simp [cuControl, cuKind] at hc
  have hf' : lsuFault (core (met p d) p) (oneMove port v sat) = none := by simpa [metCore] using hf
  have hs' : stallsSb (met p d) (core (met p d) p) (oneMove port v sat) = false := by simpa only [metCore] using hs
  have he' : lsuCorrects (core (met p d) p) (oneMove port v sat) = 0 := by simpa only [metCore] using he
  have hfind : (oneMove port v sat).find? (fun m => m.dst == 0x3C5) = none := by simp [oneMove, h5]
  have hctl : (oneMove port v sat).find? (fun m => cuControl m.dst) = none := by simp [oneMove, hc]
  have hdo : ∀ d next, (oneMove port v sat).foldl (doMove p next (oneMove port v sat)) d = trigUnit p port v sat d := by
    intro d next
    simp [oneMove, doMove, ht, hc]
  have hop : onCore p (operandMoves (oneMove port v sat)) (met p d) = trigDev p d := by
    simp only [onCore, trigDev, operandMoves_one _ ht, metCore]
  have hm : settle p (onCore p (fun c => c.syncDue c.issued) (atIssue p d)) = met p d := rfl
  simp only [issueOne, issueWith, hr, hu, Bool.not_true, if_true, Bool.false_eq_true, issueMoves, hfind, issueMoves.run, hm, hf', hs', he',
    if_false, eccCorrected_zero, winners_one ht, hop, hdo, hctl, (by decide : ¬ (0 : Nat) = 2)]
  refine ⟨_, rfl, fun c => ?_⟩
  have h : ∀ n, SameWork ((cuEffect (core (met p d) p).pc none c).spend n) c :=
    fun n => (sameWork_spend ..).trans (sameWork_fall ..)
  have h2 : ∀ n k, SameWork { ((cuEffect (core (met p d) p).pc none c).spend n).count 0xEF 1 with landed := [], landAt := k } c :=
    fun n _ => .trans ⟨rfl, rfl, rfl, rfl, rfl, rfl, rfl, rfl, rfl, rfl, rfl, rfl, rfl⟩ ((sameWork_count ..).trans (h n))
  have h3 : ∀ n k, SamePorts { ((cuEffect (core (met p d) p).pc none c).spend n).count 0xEF 1 with landed := [], landAt := k } c :=
    fun n _ => .trans (b := ((cuEffect (core (met p d) p).pc none c).spend n).count 0xEF 1) (fun _ _ => rfl)
      ((samePorts_count _ _ (by decide)).trans ((samePorts_spend _ _).trans (samePorts_fall _ _)))
  generalize hst : bankStall _ _ + lsuBankStall _ _ + _ = n
  by_cases hn : n = 0
  · simp only [hn, if_true]
    exact ⟨h2 _ _, h3 _ _⟩
  · simp only [hn, if_false]
    exact ⟨(sameWork_count ..).trans (h2 _ _), (samePorts_count _ _ (by decide)).trans (h3 _ _)⟩

/-! ### What the bundle meets -/

theorem waiting_skipLoop (c : Core) : c.skipLoop.waiting = c.waiting := by
  simp only [Core.skipLoop]
  split
  · exact ((sameWork_goto ..).trans ((sameWork_loopCost ..).trans (sameWork_setLoop ..))).waiting
  · rfl

theorem waiting_skipLoops (c : Core) : c.skipLoops.waiting = c.waiting := by
  simp only [Core.skipLoops, waiting_skipLoop]

theorem waiting_syncLand (w : SyncWr) (c : Core) : (c.syncLand w).waiting = c.waiting := by
  simp only [Core.syncLand]; split <;> rfl

theorem waiting_syncDue (n : Nat) (c : Core) : (c.syncDue n).waiting = c.waiting := by
  have h : ∀ (l : List SyncWr) (c : Core), (l.foldl (fun c w => c.syncLand w) c).waiting = c.waiting := by
    intro l
    induction l with
    | nil => intro c; rfl
    | cons w r ih => intro c; simp only [List.foldl_cons]; rw [ih, waiting_syncLand]
  simp only [Core.syncDue]
  rw [h]

theorem waiting_portLand (id : Nat) (v : Word) (c : Core) : (c.portLand id v).waiting = c.waiting := by
  simp only [Core.portLand]
  split
  · rfl
  · split
    · rfl
    · split
      · rfl
      · split <;> rfl

theorem waiting_landEff (p : Nat) (e : Eff) (d : Dev) : (core (landEff p e d) p).waiting = (core d p).waiting := by
  cases e <;> simp [landEff, waiting_portLand, Core.accLand, Core.put, Core.heal]

theorem waiting_forEach_land (p : Nat) (l : List Landing) : ∀ d,
    (core (forEach l (fun l => landEff p l.eff) d) p).waiting = (core d p).waiting := by
  induction l with
  | nil => intro d; rfl
  | cons x r ih =>
    intro d
    have : forEach (x :: r) (fun l => landEff p l.eff) d = forEach r (fun l => landEff p l.eff) (landEff p x.eff d) := rfl
    rw [this, ih, waiting_landEff]

theorem waiting_landDue (p n : Nat) (d : Dev) : (core (landDue p n d) p).waiting = (core d p).waiting := by
  simp only [landDue]
  rw [waiting_forEach_land, waiting_forEach_land]
  simp

theorem waiting_met (p : Nat) (d : Dev) : (metCore p d).waiting = (core d p).waiting := by
  simp only [metCore, met, settle]
  rw [waiting_landDue]
  simp [waiting_syncDue, waiting_skipLoops, atIssue]

/-! ### The holds -/

/-- With no wait in progress only FENCE is looked at. -/
theorem settleHolds_eq {p : Nat} {d : Dev} (h : (core d p).waiting = none) :
    settleHolds p d = d ∨ settleHolds p d = onCore p (fun c => { c with fence := false }) d := by
  simp only [settleHolds, doIf]
  split
  · exact .inr (by simp [wakeNow, h])
  · exact .inl (by simp [wakeNow, h])

theorem core_settleHolds {p : Nat} {d : Dev} (h : (core d p).waiting = none) :
    ∃ b, core (settleHolds p d) p = { core d p with fence := b } := by
  rcases settleHolds_eq h with e | e <;> rw [e]
  · exact ⟨(core d p).fence, rfl⟩
  · exact ⟨false, by rw [core_onCore_same]⟩

theorem settleHolds_regs {p : Nat} {d : Dev} (h : (core d p).waiting = none) :
    (settleHolds p d).regs = d.regs ∧ (settleHolds p d).mem = d.mem := by
  rcases settleHolds_eq h with e | e <;> rw [e] <;> exact ⟨rfl, rfl⟩

/-! ### What the landings before an issue leave alone -/

theorem landEff_keeps (p : Nat) (e : Eff) (d : Dev) :
    (landEff p e d).regs = d.regs ∧ (landEff p e d).freeCtr = d.freeCtr ∧ ∀ q, q ≠ p → core (landEff p e d) q = core d q := by
  cases e <;> exact ⟨rfl, rfl, fun q hq => core_onCore_ne _ _ hq⟩

theorem forEach_landEff_keeps (p : Nat) (l : List Landing) : ∀ d : Dev,
    (forEach l (fun l => landEff p l.eff) d).regs = d.regs ∧ (forEach l (fun l => landEff p l.eff) d).freeCtr = d.freeCtr ∧
      ∀ q, q ≠ p → core (forEach l (fun l => landEff p l.eff) d) q = core d q := by
  induction l with
  | nil => exact fun d => ⟨rfl, rfl, fun _ _ => rfl⟩
  | cons x r ih =>
    intro d
    have h : forEach (x :: r) (fun l => landEff p l.eff) d = forEach r (fun l => landEff p l.eff) (landEff p x.eff d) := rfl
    obtain ⟨h1, h2, h3⟩ := ih (landEff p x.eff d)
    obtain ⟨k1, k2, k3⟩ := landEff_keeps p x.eff d
    exact ⟨h ▸ h1.trans k1, h ▸ h2.trans k2, fun q hq => h ▸ (h3 q hq).trans (k3 q hq)⟩

/-- Landings change nothing but the pair and memory. -/
theorem landDue_keeps (p n : Nat) (d : Dev) :
    (landDue p n d).regs = d.regs ∧ (landDue p n d).freeCtr = d.freeCtr ∧ ∀ q, q ≠ p → core (landDue p n d) q = core d q := by
  simp only [landDue]
  obtain ⟨h1, h2, h3⟩ := forEach_landEff_keeps p _ _
  obtain ⟨k1, k2, k3⟩ := forEach_landEff_keeps p _ _
  exact ⟨h1.trans (k1.trans rfl), h2.trans (k2.trans rfl),
    fun q hq => (h3 q hq).trans ((k3 q hq).trans (core_setCore_ne _ _ hq))⟩

theorem settle_keeps (p : Nat) (d : Dev) :
    (settle p d).regs = d.regs ∧ (settle p d).freeCtr = d.freeCtr ∧ ∀ q, q ≠ p → core (settle p d) q = core d q :=
  landDue_keeps p _ d

/-- What the next bundle meets differs from the present in the pair and in memory alone. -/
theorem met_keeps (p : Nat) (d : Dev) :
    (met p d).regs = d.regs ∧ (met p d).freeCtr = d.freeCtr ∧ ∀ q, q ≠ p → core (met p d) q = core d q := by
  obtain ⟨h1, h2, h3⟩ := settle_keeps p (onCore p (fun c => c.syncDue c.issued) (atIssue p d))
  exact ⟨h1, h2, fun q hq => (h3 q hq).trans ((core_onCore_ne _ _ hq).trans (core_onCore_ne _ _ hq))⟩

/-! ### The issue of an operation -/

theorem core_trigDev (p : Nat) (d : Dev) : core (trigDev p d) p = metCore p d := by simp [trigDev]

/-- After the issue of one trigger of a unit other than the CU, the pair's work is what the unit made of it. -/
theorem issueOne_work {p port : Nat} {v : Word} {sat : Bool} {d : Dev} (hr : running d p = true)
    (hu : unheld (core d p) = true) (ht : portKind port = .trigger) (hc : cuControl port = false)
    (hf : (lsuFault (metCore p d) (oneMove port v sat)).isNone = true)
    (hs : stallsSb (met p d) (metCore p d) (oneMove port v sat) = false)
    (hx : lsuCorrects (metCore p d) (oneMove port v sat) = 0)
    (hw : (core (trigUnit p port v sat (trigDev p d)) p).waiting = none) :
    let x := trigUnit p port v sat (trigDev p d)
    ∃ b, SameWork (core (issueOne p port v sat d) p) { core x p with fence := b } ∧
      SamePorts (core (issueOne p port v sat d) p) (core x p) ∧ (issueOne p port v sat d).regs = x.regs ∧
      (issueOne p port v sat d).mem = x.mem ∧ ∀ q, q ≠ p → core (issueOne p port v sat d) q = core x q := by
  intro x
  obtain ⟨g, he, hg⟩ := issueOne_trigger hr hu ht hc hf hs hx
  generalize hy : doIf (spindleMeets (met p d) p (oneMove port v sat)) freshNext
      (trigUnit p port v sat (trigDev p d)) = y at he
  obtain ⟨k1, k2, k3⟩ : y.regs = x.regs ∧ y.mem = x.mem ∧ ∀ q, core y q = core x q :=
    hy ▸ doIf_freshNext_keeps (spindleMeets (met p d) p (oneMove port v sat)) (trigUnit p port v sat (trigDev p d))
  obtain ⟨hg', hp⟩ := hg (core x p)
  obtain ⟨h1, h2, h3, h4, h5, h6, h7, h8, h9, h10, h11, h12, h13⟩ := hg'
  have hw' : (core (onCore p g y) p).waiting = none := by simp [h12, k3, x, hw]
  obtain ⟨b, hb⟩ := core_settleHolds hw'
  obtain ⟨hr1, hm1⟩ := settleHolds_regs hw'
  refine ⟨b, ?_, ?_, by rw [he, hr1, onCore_regs, k1], by rw [he, hm1, onCore_mem, k2], fun q hq => ?_⟩
  · rw [he, hb]
    simp only [core_onCore_same, k3]
    exact ⟨h1, h2, h3, h4, h5, h6, h7, h8, h9, h10, h11, h12, rfl⟩
  · rw [he, hb]
    simp only [core_onCore_same, k3]
    exact fun id hi => hp id hi
  · rw [he]
    rcases settleHolds_eq hw' with e | e <;> rw [e]
    · exact (core_onCore_ne _ _ hq).trans (k3 q)
    · exact (core_onCore_ne _ _ hq).trans ((core_onCore_ne _ _ hq).trans (k3 q))

/-- A unit that changes its pair alone, on the device its bundle meets: what stays. -/
theorem trigUnit_keeps {p port : Nat} {v : Word} {sat : Bool} {f : Core → Core} (d : Dev)
    (hu : ∀ d, trigUnit p port v sat d = onCore p f d) :
    core (trigUnit p port v sat (trigDev p d)) p = f (metCore p d) ∧
      (trigUnit p port v sat (trigDev p d)).regs = d.regs ∧ (trigUnit p port v sat (trigDev p d)).mem = (met p d).mem ∧
      ∀ q, q ≠ p → core (trigUnit p port v sat (trigDev p d)) q = core d q := by
  obtain ⟨m1, _, m3⟩ := met_keeps p d
  rw [hu]
  refine ⟨by rw [core_onCore_same, core_trigDev], ?_, ?_, fun q hq => ?_⟩
  · rw [onCore_regs, trigDev, setCore_regs, m1]
  · rw [onCore_mem, trigDev, setCore_mem]
  · rw [core_onCore_ne _ _ hq, trigDev, core_setCore_ne _ _ hq]
    exact m3 q hq

/-- The command of an operation of a unit that changes its pair alone: it completes, the pair's work and ports are what
`f` makes of the pair as the bundle meets it, and nothing else changes. -/
theorem opCmd_ends {s : State} {p : Pair} {port : Nat} {v : Word} {sat : Bool} {f : Core → Core}
    (h : issues s p port v sat = true) (ht : portKind port = .trigger) (hc : cuControl port = false)
    (hu : ∀ d, trigUnit p port v sat d = onCore p f d) (hw : ∀ c, (f c).waiting = c.waiting) :
    ∃ t b, opCmd p port v sat s = .next t ∧ SameWork (core t.dev p) { f (metCore p s.dev) with fence := b } ∧
      SamePorts (core t.dev p) (f (metCore p s.dev)) ∧ t.pending = s.pending ∧ t.role = s.role ∧
      t.dev.regs = s.dev.regs ∧ t.dev.mem = (met p s.dev).mem ∧ ∀ q, q ≠ p.val → core t.dev q = core s.dev q := by
  simp only [issues, issuesEcc, canIssue, Bool.and_eq_true, Bool.not_eq_true', beq_iff_eq] at h
  obtain ⟨⟨⟨⟨⟨ha, hr⟩, hn⟩, hf⟩, hs⟩, hx⟩ := h
  have hwm : (metCore p s.dev).waiting = none := by
    rw [waiting_met]
    simp only [unheld, Bool.and_eq_true] at hn
    exact Option.isNone_iff_eq_none.mp hn.1.1
  obtain ⟨hcore, hg, hm, ho⟩ := trigUnit_keeps s.dev hu
  obtain ⟨b, h1, h2, h3, h4, h5⟩ := issueOne_work hr hn ht hc hf hs hx (by rw [hcore, hw, hwm])
  rw [hcore] at h1 h2
  exact ⟨_, b, onDev_awake ha _, h1, h2, rfl, rfl, h3.trans hg, h4.trans hm, fun q hq => (h5 q hq).trans (ho q hq)⟩

theorem pipe_result (c : Core) (base k : Nat) (v : Word) :
    ⟨c.issued, c.issued + k, .port (base + 1) v⟩ ∈ (c.result base k v).pipe := by
  simp only [Core.result]
  split <;> simp [Core.send]

theorem pipe_result_dst (c : Core) (base k : Nat) (v : Word) (h : dstReg (c.num base) = true) :
    ⟨c.issued, c.issued + k, .port (c.num base) v⟩ ∈ (c.result base k v).pipe := by
  simp only [Core.result, h, if_true]
  simp [Core.send, Core.issued, Core.num, Core.port]

theorem issued_result (c : Core) (base k : Nat) (v : Word) : (c.result base k v).issued = c.issued := by
  simp only [Core.result]
  split <;> rfl

theorem waiting_result (c : Core) (base k : Nat) (v : Word) : (c.result base k v).waiting = c.waiting := by
  simp only [Core.result]
  split <;> rfl

end Sys2Proof.Machine
end

