-- ==== Sys2Proof/WellFormed.lean ====
section
/-! DEFINITION. Which commands have a form the manual gives them: the sizes of what they carry. A command that is not
well formed is a term that no sender of the manual can send; `exec` is total on it all the same. -/

namespace Sys2Proof

/-- The length of a bulk block (R395): 1 to 1,024 words. -/
def bulkLength (n : Nat) : Bool := decide (0 < n) && decide (n ≤ 1024)

/-- The form of a command. The lists a command carries have the manual's lengths: 192 sense words of a sample (R297),
N words a slot for one period, N being 6 or 12 (R13, R297, R404), 209 swept words (R372), at most 1,024 words of a bulk
copy (R395), the eight words of a sequencer command (R262), a payload of at most 9,000 bytes (R283);
an access has 1, 2, 4 or 8 bytes, or is a burst that names each of its bytes once (R47, R50); IGMP has versions 1 to 3 (R289); the link trains on three or four
lanes (R392); only pages 1 to 7 of a tag are written (R350). -/
def Instr.wf : Instr → Bool
  | .sampleTick _ sdin => sdin.length == 192
  | .inTdmRx _ _ _ words => words.length == 96 || words.length == 192
  | .shadowRx _ _ words => words.length == 1152 || words.length == 2304
  | .sweepRx _ _ _ words => words.length == 209
  | .bulkRx _ _ (.words l) => bulkLength l.length
  | .seqStart _ words | .seqCancel _ words | .seqCancelAll _ words | .seqReservedOpcode _ words => words.length == 8
  | .rxPacket pkt => decide (pkt.payload.length ≤ 9000)
  | .writePage _ page _ => page != 0
  | .igmpQuery _ version => version != 0
  | .apdinLinkUp lanes => decide (3 ≤ lanes.val)
  | .registerWrite _ _ (.burst l) _ => !l.isEmpty && decide ((l.map Prod.fst).Nodup)
  | .registerWrite _ _ (.word _) bytes => bytes == 1 || bytes == 2 || bytes == 4 || bytes == 8
  | .quickTestEnd sigs => sigs.length == 42
  | _ => true

end Sys2Proof
end

