-- ==== Sys2Proof/Tests/Slice0.lean ====
section
/-! SUPPORT. Tests of the model: the form of commands, single steps with results worked out by hand from the manual's
rules, and for each statement concrete states and operands that meet its hypotheses. -/

namespace Sys2Proof.Tests

set_option Elab.async false

open Sys2Proof Sys2Proof.Machine Sys2Proof.Safety

/-! ### Small states -/

/-- The module after reset, changed in its device. -/
def start (f : Dev → Dev) : State := { State.reset with dev := f State.reset.dev }

/-- The module after reset, in the twin state given, changed in its device. -/
def as (st : TwinState) (f : Dev → Dev) : State :=
  { pending := [], role := { State.reset.role with state := st, ownLow := ownsTdm st, beating := isLive st },
    dev := f State.reset.dev }

/-- Pair 0 runs. -/
def run0 (d : Dev) : Dev := wr d (plyPstateState 0) 1

/-- Pair 0 runs, with its core changed. -/
def one (f : Core → Core) : State := start (fun d => setCore 0 (f Core.reset) (run0 d))

/-- Pair 0 runs from reset. -/
def ready : State := one id

/-- `exec` of the command answers a next state with the property. -/
def after (c : Instr) (s : State) (q : State → Bool) : Bool :=
  match exec c s with
  | .next t => q t
  | _ => false

/-- The effects on their way in pair 0. -/
def sent (t : State) : List Eff := (Machine.core t.dev 0).pipe.map (fun l => l.eff)

/-! ### A pair's operations -/

/-- Every operation of every unit issues from `ready`, with S 0 and, where the unit has it, S 1. -/
theorem witness_AluOperations :
    ∀ u : Fin 4, ∀ o : Fin 24, issues ready 0 (0x288 + 32 * u.val + o) 3 true = true ∧
      issues ready 0 (0x288 + 32 * u.val + o) 3 false = true := by decide +kernel

theorem witness_Multiplier : ∀ o : Fin 5, issues ready 0 (0x308 + o.val) 3 true = true ∧
    issues ready 0 (0x308 + o.val) 3 false = true := by decide +kernel

/-- A pair with a division and a square root about to land. -/
def iterating : State := one (fun c => { c with div := some ⟨5, 7, 0, 9, []⟩, fpi := some ⟨6, 8, 1, 9, []⟩ })

theorem witness_DividerAndRoot :
    (∀ o : Fin 8, issues ready 0 (0x388 + o.val) 0 true = true ∧ issues ready 0 (0x388 + o.val) 3 false = true) ∧
    (∀ dbl : Bool, issues ready 0 (fpPort 0x14 dbl) 3 false = true ∧ issues ready 0 (fpPort 0x15 dbl) 3 false = true) ∧
    awake iterating.dev = true ∧ (Machine.core iterating.dev 0).div = some ⟨5, 7, 0, 9, []⟩ ∧
    (Machine.core iterating.dev 0).fpi = some ⟨6, 8, 1, 9, []⟩ ∧ dstReg 5 = true := by decide +kernel

theorem witness_FpuOperations :
    (∀ dbl : Bool, ∀ o : Fin 14, issues ready 0 (fpPort (8 + o.val) dbl) 3 false = true) ∧
    (∀ o : Fin 12, issues ready 0 (0x368 + o.val) 3 false = true) ∧ issues ready 0 0xE1 3 false = true := by decide +kernel

theorem witness_FpuNaNs : (fpVal false 0x7FC00001).isNan = true ∧ (fpVal true 0x7FF0000000000001).isNan = true ∧
    (fpVal true 0x7FF0000000000001).isSig = true ∧ 0 < (1 : Nat) := by decide +kernel

theorem witness_CmacOperations :
    (∀ c : Fin 4, ∀ o : Fin 0x34, issues ready 0 (0x108 + 64 * c.val + o.val) 3 true = true ∧
      issues ready 0 (0x108 + 64 * c.val + o.val) 3 false = true) ∧
    (∀ c : Fin 4, ∀ k : Fin 4, issues ready 0 (0x12C + 64 * c.val + k.val) 0 false = true ∧
      issues ready 0 (0x130 + 64 * c.val + k.val) 0 false = true ∧ issues ready 0 (0x130 + 64 * c.val + k.val) 0 true = true) ∧
    ∀ c : Fin 4, issues ready 0 (0x105 + 64 * c.val) 0 false = true := by decide +kernel

/-- A pair with one effect due. -/
def landing (e : Eff) : State := one (fun c => ({ c with pipe := [⟨1, 4, e⟩] } : Core).put 0xEF 5)

theorem witness_FixedLatencyLanding : ∀ e ∈ [Eff.port 0xD0 1, .acc 1 2 (.add 3 4) true, .acc 0 0 (.set 3 4) false,
      .acc 3 3 (.raw 2 9) false, .stat 1 4, .statClear 2, .flags 5, .fstat 3, .store 0 0x40 [1, 2]],
    awake (landing e).dev = true ∧ (Machine.core (landing e).dev 0).pipe = [⟨1, 4, e⟩] ∧
      (4 : Nat) ≤ (Machine.core (landing e).dev 0).issued := by decide +kernel

/-- A pair whose LSU 0 loads into G6. -/
def loading : State := one (fun c => c.put 0x200 6)

theorem witness_LsuLoads :
    (∀ u : Fin 2, ∀ o : Fin 10, issues ready 0 (0x210 + 64 * u.val + o.val) 0 false = true) ∧
    issues loading 0 0x217 0 false = true ∧ issues loading 0 0x218 0 false = true ∧ (opnd loading 0 0x200).toNat < 0x80 ∧
    0x80 ≤ (opnd ready 0 0x200).toNat := by decide +kernel

theorem witness_LsuStores : ∀ u : Fin 2, ∀ o : Fin 7, issues ready 0 (0x220 + 64 * u.val + o.val) 0 false = true := by
  decide +kernel

/-- A pair whose A1 lies in a buffer of 10 bytes, with M1 = 3. -/
def ringed : State := one (fun c => ((c.put 0x81 24).put 0xA1 3).put 0xC1 10)

/-- The addressing words of A1 with M1: modes 1 and 2, and mode 2 of A2, which has no buffer. -/
theorem witness_LsuAddressUpdate :
    lsuOf (.lsuLd8u 0 0 0x421) = some (0, 0, 0x10, 0x421) ∧ issues ringed 0 0x210 0x421 false = true ∧
    lsuOf (.lsuSt8 0 1 0x821) = some (0, 1, 0x20, 0x821) ∧ issues ringed 0 (0x200 + 64 + 0x20) 0x821 false = true ∧
    issues ringed 0 0x210 0x822 false = true ∧ (opnd ringed 0 0xC1).toNat = 10 ∧ (opnd ringed 0 0xC2).toNat = 0 ∧
    (10 ≤ 2 ^ 4 ∧ 2 ^ (4 - 1) < 10) ∧ issues ringed 0 0x210 0 false = true ∧ issues ringed 0 0x210 0xC21 false = true ∧
    24 < 24 / pow2Above 10 * pow2Above 10 + 10 ∧ (-9 : Int).natAbs ≤ 10 := by decide +kernel

/-- A data-cache line of SRAM. -/
def line0 (dirty : Bool) : DLine := ⟨0x10000000, List.replicate 64 7, dirty⟩

/-- A pair with a line in its data cache, in a write-back region over SRAM, and a write waiting. -/
def cached (dirty : Bool) : State := one (fun c =>
  { c with dcache := [(0, some (line0 dirty))], regions := [(0, 0x10000000), (1, 0x10000FFF), (2, 5)],
           wb := [⟨0x10000040, [], true, 0, false⟩] })

theorem witness_ExtOperations :
    (∀ o ∈ [0x410, 0x411, 0x412, 0x413, 0x414, 0x41B, 0x41C, 0x41D, 0x41E, 0x41F, 0x420, 0x421, 0x422, 0x423, 0x450, 0x451,
      0x452, 0x453], issues ready 0 o 0 false = true) ∧ (metCore 0 ready.dev).attr 0 = 0 ∧
    (∀ b : Bool, (∀ o ∈ [0x413, 0x414, 0x418, 0x419, 0x41A], issues (cached b) 0 o 0x10000000 false = true) ∧
      (metCore 0 (cached b).dev).dFind 0x10000000 = some (0, line0 b) ∧ (metCore 0 (cached b).dev).attr 0x10000000 = 2) ∧
    issues (cached true) 0 0x428 0 false = true ∧ (metCore 0 (cached true).dev).wb ≠ [] := by decide +kernel

/-- A pair at level 4. -/
def handling : State := one (fun c => { c.put 0xE7 4 with save := [(8, 0x1000), (9, 0x105)] })

theorem witness_Branches :
    (∀ o : Fin 4, issues ready 0 (0x3C0 + o.val) 9 false = true) ∧ issues ready 0 0x3C4 0 false = true ∧
    (metCore 0 handling.dev).level ≠ 0 ∧ issues handling 0 0x3C5 0 false = true := by decide +kernel

theorem witness_LoopControls : ∀ k : Fin 3, issues ready 0 (0x3CA + 8 * k.val) 0 false = true ∧
    issues ready 0 (0x3CA + 8 * k.val) 9 false = true ∧ issues ready 0 (0x3CB + 8 * k.val) 0 false = true ∧
    issues ready 0 (0x3CC + 8 * k.val) 9 false = true := by decide +kernel

theorem witness_OperationFrame :
    (opOf (.add32 0 1 3 true) = some (0, 0x2A8, 3, true) ∧ issues ready 0 0x2A8 3 true = true ∧ cuControl 0x2A8 = false) ∧
    (opOf (.dclean 0 64) = some (0, 0x418, 64, false) ∧ issues ready 0 0x418 64 false = true ∧ cuControl 0x418 = false) ∧
    (opOf (.callr 0 2) = some (0, 0x3C3, 2, false) ∧ issues ready 0 0x3C3 2 false = true ∧ cuControl 0x3C3 = true) := by
  decide +kernel

/-- A division holds the divider. -/
def dividing : State := one (fun c => { c with div := some ⟨5, 7, 0, 9, []⟩ })

theorem witness_Scoreboard :
    opOf (.divu32 0 3) = some (0, 0x389, 3, false) ∧ canIssue dividing 0 = true ∧
    (lsuFault (metCore 0 dividing.dev) (oneMove 0x389 3 false)).isNone = true ∧
    stallsSb (met 0 dividing.dev) (metCore 0 dividing.dev) (oneMove 0x389 3 false) = true ∧
    (Machine.core dividing.dev 0).busy 5 = true ∧ portKind 0x389 = .trigger ∧
    ((Machine.core (setCore 0 ((Machine.core dividing.dev 0).put 0x280 5) dividing.dev) 0).busy
      ((Machine.core (setCore 0 ((Machine.core dividing.dev 0).put 0x280 5) dividing.dev) 0).num (unitBase 0x288)) = true) ∧
    portKind 0x288 = .trigger ∧ (Machine.core iterating.dev 0).fpi ≠ none ∧
    portKind 0x210 = .trigger ∧ ({ Core.reset with div := some ⟨0x81, 7, 0, 9, []⟩ } : Core).busy (0x80 + (1 : Word).toNat % 32) = true := by decide +kernel

/-- A pair whose A1 holds an address, with a bundle at its pc. -/
def aimed (a b : Nat) (level : Nat) : State :=
  one (fun c => { (c.put 0x81 (BitVec.ofNat 64 a)).put 0xE7 (BitVec.ofNat 64 level) with queue := [(0, b)] })

theorem witness_CoreFaults :
    lsuOf (.lsuSt32 0 0 1) = some (0, 0, 0x22, 1) ∧ canIssue (aimed 0x80000 0 0) 0 = true ∧
    (∀ a ∈ [0x80000, 0x7FFFE, 0x7FF00, 0x7FEFC], let s := aimed a 0 0
      stallsSb (met 0 s.dev) (metCore 0 s.dev) (oneMove (0x200 + 64 * 0 + 0x22) 1 false) = false) ∧
    (metCore 0 (aimed 0x80000 0 0).dev).level ≠ 15 ∧ (lsuSpan (aimed 0x80000 0 0) 0 0x22 1) = (0x80000, 4) ∧
    (lsuSpan (aimed 0x7FFFE 0 0) 0 0x22 1) = (0x7FFFE, 4) ∧ (0x7FFFE : Nat) % 4 ≠ 0 ∧
    (lsuSpan (aimed 0x7FF00 0 0) 0 0x22 1) = (0x7FF00, 4) ∧ (lsuSpan (aimed 0x7FEFC 0 0) 0 0x22 1) = (0x7FEFC, 4) ∧
    fetched (aimed 0 0xC0000000 0) 0 0xC0000000 = true ∧ illegal 0xC0000000 = some (1, 0) ∧
    fetched (aimed 0 0xC0000000 15) 0 0xC0000000 = true ∧ (metCore 0 (aimed 0 0xC0000000 15).dev).level = 15 ∧
    canIssue ready 0 = true ∧ (metCore 0 ready.dev).level = 0 := by decide +kernel

/-- A bundle from its header and its first slots, the others empty (R101 to R103). -/
def bundle (header : Nat) (slots : List Nat) : Nat :=
  header + (List.range 16).foldl (fun a k => a + nth slots k 0x20000000 * 2 ^ (32 + 30 * k)) 0

/-- A pair with that bundle next. -/
def queued (b : Nat) : State := one (fun c => { c with queue := [(0, b)] })

/-- A synchronised write that is due. -/
def syncing (port : Nat) : State := one (fun c => ({ c with sync := [⟨4, port, 2, 5⟩] } : Core).put 0xEF 5)

theorem witness_BundlesAndSynchronisedClass :
    (fetched (queued (bundle 0 [])) 0 (bundle 0 []) = true ∧ illegal (bundle 0 []) = none ∧ bit (bundle 0 []) 29 = false ∧
      fmtField (bundle 0 []) ≠ 2 ∧ slotsOf (bundle 0 []) = [] ∧
      ∀ k : Fin 3, (metCore 0 (queued (bundle 0 [])).dev).loopSt k ≠ 1) ∧
    (fetched (queued (bundle 0 [0x0200A00E])) 0 (bundle 0 [0x0200A00E]) = true ∧
      slotsOf (bundle 0 [0x0200A00E]) = [⟨0, 0, true, 5, 7, false⟩] ∧
      illegal (bundle 0 [0x0200A00E]) = none ∧ (metCore 0 (queued (bundle 0 [0x0200A00E])).dev).busy 7 = false) ∧
    (fetched (queued (bundle 0 [0x0200A1C0])) 0 (bundle 0 [0x0200A1C0]) = true ∧
      slotsOf (bundle 0 [0x0200A1C0]) = [⟨0, 0, true, 5, 0xE0, false⟩] ∧
      illegal (bundle 0 [0x0200A1C0]) = none ∧ (metCore 0 (queued (bundle 0 [0x0200A1C0])).dev).busy 0xE0 = false) ∧
    (∀ port ∈ [0xE0, 0xF8], awake (syncing port).dev = true ∧ (Machine.core (syncing port).dev 0).sync = [⟨4, port, 2, 5⟩] ∧
      4 ≤ (Machine.core (syncing port).dev 0).issued ∧ canIssue (syncing port) 0 = true ∧
      (Machine.core (syncing port).dev 0).pipe = []) := by decide +kernel

/-- Source 40 is pending and enabled for pair 0, and pair 0 waits as given with group 1 in WMASK. -/
def waitingFor (w : Option Nat) : State :=
  start (fun d => wr (wr (setCore 0 ({ Core.reset.put 0x3E0 2 with waiting := w }) (run0 d)) (evcPend 1) 0x100)
    (evcCfgCoreEn 40) 1)

theorem witness_Waiting :
    issues ready 0 0x3E1 9 false = true ∧ waitGroup ready.dev 0 (opnd ready 0 0x3E0).toNat = none ∧
    issues (waitingFor none) 0 0x3E1 9 false = true ∧
    waitGroup (waitingFor none).dev 0 (opnd (waitingFor none) 0 0x3E0).toNat = some 1 ∧
    awake (waitingFor (some 3)).dev = true ∧ (Machine.core (waitingFor (some 3)).dev 0).waiting = some 3 ∧
    waitGroup (waitingFor (some 3)).dev 0 ((Machine.core (waitingFor (some 3)).dev 0).port 0x3E0).toNat = some 1 := by
  decide +kernel

/-- A load of SRAM in progress. -/
def fetching (n : Nat) : State := one (fun c => { c with ext := [⟨5, 0x80, .load 0x10000040 n true 0⟩] })

/-- A load of the channel table in progress after `tries` retries; entry 0 is torn or not. -/
def tableLoading (torn : Bool) (tries : Nat) : State :=
  start (fun d =>
    let d1 := setCore 0 { Core.reset with ext := [⟨5, 0x80, .load 0x10000000 4 true 0⟩] } (run0 d)
    let d2 := wr (wr d1 chtTableBase 0x1000) (hdrActive .cht) 1
    let d3 := { d2 with cht := { d2.cht with stopped := false, tornTries := [(0, tries)] } }
    if torn then wrB d3 0x10000002 1 else d3)

theorem witness_ExtLoads :
    (∀ n ∈ [4, 8], awake (fetching n).dev = true ∧
      (Machine.core (fetching n).dev 0).ext = [⟨5, 0x80, .load 0x10000040 n true 0⟩] ∧ 0x10000040 % n = 0 ∧
      inRam 0x10000040 = true ∧ inTable (fetching n).dev 0x10000040 = false ∧ (Machine.core (fetching n).dev 0).wb = [] ∧
      (Machine.core (fetching n).dev 0).pipe = [] ∧ (Machine.core (fetching n).dev 0).sync = [] ∧
      (Machine.core (fetching n).dev 0).entry = none ∧ (Machine.core (fetching n).dev 0).level ≠ 15) ∧
    (∀ torn : Bool, awake (tableLoading torn 3).dev = true ∧
      nextLoad (tableLoading torn 3).dev 0 true = some (⟨5, 0x80, .load 0x10000000 4 true 0⟩, 0x10000000, 4, true, 0) ∧
      chtServing (tableLoading torn 3).dev = true ∧ cacheGet (tableLoading torn 3).dev 0 = none ∧
      isTorn (tableLoading torn 3).dev 0 = torn) := by decide +kernel

/-- A write of SRAM waits, with a FENCE or not. -/
def writing (fence : Bool) : State :=
  one (fun c => { c with wb := [⟨0x10000040, cells 0x10000040 [1, 2, 3, 4], true, 0x80, false⟩], fence := fence })

/-- A FENCE with nothing left to wait for, after an error or not. -/
def fenced (e : Option (Nat × Nat)) : State := one (fun c => { c with fence := true, fenceErr := e })

/-- A maintenance operation in progress over the line of `cached`. -/
def ranging (w : ExtWork) : State := one (fun c => { c with ext := [⟨5, 0x80, w⟩], dcache := [(0, some (line0 true))] })

theorem witness_WriteBufferAndMaintenance :
    (∀ b : Bool, awake (writing b).dev = true ∧
      (Machine.core (writing b).dev 0).wb = [⟨0x10000040, cells 0x10000040 [1, 2, 3, 4], true, 0x80, false⟩] ∧
      (Machine.core (writing b).dev 0).fence = b ∧ (Machine.core (writing b).dev 0).entry = none ∧
      (Machine.core (writing b).dev 0).level ≠ 15 ∧ guardOf (writing b).dev 0x10000040 4 = none) ∧
    (0x10000040 % 4 = 0 ∧ inRam 0x10000040 = true) ∧
    (∀ e ∈ [none, some (0x20, 0x80)], (Machine.core (fenced e).dev 0).fence = true ∧ (Machine.core (fenced e).dev 0).wb = [] ∧
      (Machine.core (fenced e).dev 0).ext.any ExtOp.isRange = false ∧ (Machine.core (fenced e).dev 0).fenceErr = e ∧
      (Machine.core (fenced e).dev 0).entry = none ∧ (Machine.core (fenced e).dev 0).level ≠ 15) ∧
    (Machine.core (ranging (.irange 0 64)).dev 0).ext = [⟨5, 0x80, .irange 0 64⟩] ∧
    (Machine.core (ranging (.range 2 0x10000020 0x10000100 0)).dev 0).ext = [⟨5, 0x80, .range 2 0x10000020 0x10000100 0⟩] ∧
    (Machine.core (ranging (.range 2 0x10000020 0x10000100 0)).dev 0).dcache = [(0, some (line0 true))] := by decide +kernel

/-- A fetch waits for its line. -/
def missing : State := one (fun c => { c with miss := some 0x10000040 })

theorem witness_FetchMiss : awake missing.dev = true ∧ (Machine.core missing.dev 0).miss = some 0x10000040 ∧
    inRam 0x10000040 = true ∧ (Machine.core missing.dev 0).entry = none ∧ (Machine.core missing.dev 0).level ≠ 15 := by
  decide +kernel

/-! ### Operations of a pair: results by hand -/

/-- Pair 0 with an operand port set. -/
def opa (port : Nat) (v : Word) : State := one (fun c => c.put port v)

/-- R104's example: the move "if P2 is 0, write 5 to G7" in slot 3. -/
theorem test_slot_word : slotOf (bundle 0 [0x20000000, 0x20000000, 0x20000000, 0x2A00A00E]) 3 =
    ⟨3, 10, true, 5, 7, false⟩ := by decide +kernel

/-- R138's example: QDOT into ACC0 of CMAC1 is port 0x160. -/
theorem test_cmac_port : opOf (.qdot 0 1 0 9 false) = some (0, 0x160, 9, false) := by decide +kernel

/-- The largest 32-bit sum wraps to the least, or clamps (R144, R145). -/
theorem test_add32_wraps : after (.add32 0 0 1 false) (opa 0x282 0x7FFFFFFF)
    (fun t => sent t == [.port 0x281 0xFFFFFFFF80000000]) = true := by decide +kernel
theorem test_add32_clamps : after (.add32 0 0 1 true) (opa 0x282 0x7FFFFFFF)
    (fun t => sent t == [.port 0x281 0x7FFFFFFF]) = true := by decide +kernel
/-- OPA is the minuend (R144), and the borrow goes to P0. -/
theorem test_subx32_borrows : after (.subx32 0 1 5) (opa 0x2A2 3)
    (fun t => sent t == [.port 0x2A1 0xFFFFFFFFFFFFFFFE, .port 0xD0 1]) = true := by decide +kernel
theorem test_addx64_carries : after (.addx64 0 0 1) (opa 0x282 0xFFFFFFFFFFFFFFFF)
    (fun t => sent t == [.port 0x281 0, .port 0xD0 1]) = true := by decide +kernel
theorem test_andn : after (.andn 0 0 0x0F) (opa 0x282 0xFF) (fun t => sent t == [.port 0x281 0xF0]) = true := by decide +kernel
theorem test_sar32_sign : after (.sar32 0 0 4) (opa 0x282 0x80000000)
    (fun t => sent t == [.port 0x281 0xFFFFFFFFF8000000]) = true := by decide +kernel
theorem test_shl_clamps : after (.shl 0 0 1 true) (opa 0x282 0x4000000000000000)
    (fun t => sent t == [.port 0x281 0x7FFFFFFFFFFFFFFF]) = true := by decide +kernel
theorem test_clz64_zero : after (.clz64 0 0 0) ready (fun t => sent t == [.port 0x281 64]) = true := by decide +kernel
/-- Seven of the bits below the sign bit of 0x00FF0000 equal it (R144). -/
theorem test_cls32 : after (.cls32 0 0 0x00FF0000) ready (fun t => sent t == [.port 0x281 7]) = true := by decide +kernel
theorem test_cmplt_signed : after (.cmplt 0 0 0) (opa 0x282 0xFFFFFFFFFFFFFFFF)
    (fun t => sent t == [.port 0x281 1]) = true := by decide +kernel
theorem test_cmpltu_unsigned : after (.cmpltu 0 0 0) (opa 0x282 0xFFFFFFFFFFFFFFFF)
    (fun t => sent t == [.port 0x281 0]) = true := by decide +kernel
theorem test_min_signed : after (.min 0 0 1) (opa 0x282 0xFFFFFFFFFFFFFFFF)
    (fun t => sent t == [.port 0x281 0xFFFFFFFFFFFFFFFF]) = true := by decide +kernel

/-- −1 × −1 of MULQ clamps to the largest Q0.31 (R136, R147). -/
theorem test_mulq_clamps : after (.mulq 0 0x80000000 true) (opa 0x302 0x80000000)
    (fun t => sent t == [.port 0x301 0x7FFFFFFF]) = true := by decide +kernel
theorem test_mulsu : after (.mulsu 0 2) (opa 0x302 0xFFFFFFFF)
    (fun t => sent t == [.port 0x301 0xFFFFFFFFFFFFFFFE]) = true := by decide +kernel

/-- What is in progress in DIV: value and cycles from now. -/
def divides (t : State) : Option (Word × Nat) := (Machine.core t.dev 0).div.map (fun o => (o.v, o.due))

/-- R151's example: 100,000 ÷ 7 lands after 6 cycles with quotient 14,285 and remainder 5. -/
theorem test_divu32_example : after (.divu32 0 7) (opa 0x382 100000) (fun t => divides t == some (14285, 6)) = true := by
  decide +kernel
theorem test_remu32_example : after (.remu32 0 7) (opa 0x382 100000) (fun t => divides t == some (5, 6)) = true := by
  decide +kernel
/-- The same in constant-time mode lands after 10 cycles (R151). -/
theorem test_divu32_constant_time : after (.divu32 0 7) (one (fun c => (c.put 0x382 100000).put 0xE0 2))
    (fun t => divides t == some (14285, 10)) = true := by decide +kernel
/-- −7 ÷ 2 is −3, remainder −1 (R149). -/
theorem test_divs64_toward_zero : after (.divs64 0 2 false) (opa 0x382 0xFFFFFFFFFFFFFFF9)
    (fun t => (divides t).map Prod.fst == some 0xFFFFFFFFFFFFFFFD) = true := by decide +kernel
theorem test_rems64_sign : after (.rems64 0 2) (opa 0x382 0xFFFFFFFFFFFFFFF9)
    (fun t => (divides t).map Prod.fst == some 0xFFFFFFFFFFFFFFFF) = true := by decide +kernel
/-- Division by zero gives all ones (R150). -/
theorem test_divu64_zero : after (.divu64 0 0) (opa 0x382 9)
    (fun t => (divides t).map Prod.fst == some 0xFFFFFFFFFFFFFFFF) = true := by decide +kernel

/-- 1.5 + 2.25 = 3.75 in binary32 (R153). -/
theorem test_fadd : after (.fadd 0 false 0x40100000) (opa 0x342 0x3FC00000)
    (fun t => sent t == [.port 0x341 0x40700000]) = true := by decide +kernel
/-- 1 + 2⁻²⁴ rounds to even, inexact (R154, R156). -/
theorem test_fadd_ties_to_even : after (.fadd 0 false 0x33800000) (opa 0x342 0x3F800000)
    (fun t => sent t == [.port 0x341 0x3F800000, .flags 1]) = true := by decide +kernel
theorem test_fmul_double : after (.fmul 0 true 0x4000000000000000) (opa 0x342 0xBFF8000000000000)
    (fun t => sent t == [.port 0x341 0xC008000000000000]) = true := by decide +kernel
/-- 2 × 3 − 6 = +0 (R153, R154). -/
theorem test_fms_zero : after (.fms 0 false 0x40400000) (one (fun c => (c.put 0x342 0x40000000).put 0x343 0x40C00000))
    (fun t => sent t == [.port 0x341 0]) = true := by decide +kernel
/-- A compare with a NaN is false; FCMPUN is true (R153). -/
theorem test_fcmpun : after (.fcmpun 0 false 0x7FC00000) (opa 0x342 0x3F800000)
    (fun t => sent t == [.port 0x341 1]) = true := by decide +kernel
/-- 0.5 in Q0.31 (R153). -/
theorem test_fcvt_s_q : after (.fcvtSQ 0 0x40000000) ready (fun t => sent t == [.port 0x341 0x3F000000]) = true := by
  decide +kernel
theorem test_fcvt_d_l : after (.fcvtDL 0 0xFFFFFFFFFFFFFFFF) ready
    (fun t => sent t == [.port 0x341 0xBFF0000000000000]) = true := by decide +kernel
/-- √2 in binary64, rounded to nearest (R154). -/
theorem test_fsqrt : after (.fsqrt 0 true 0x4000000000000000) ready
    (fun t => (Machine.core t.dev 0).fpi.map (fun o => (o.v, o.flags, o.due)) == some (0x3FF6A09E667F3BCD, 1, 19)) = true := by
  decide +kernel

/-- (1 + 2i)(3 + 4i) = −5 + 10i into ACC1 of CMAC0 (R138). -/
theorem test_cmul : after (.cmul 0 0 1 0x0000000400000003 false) (opa 0x102 0x0000000200000001)
    (fun t => sent t == [.acc 0 1 (.set (-5) 10) false]) = true := by decide +kernel
/-- (1 + 2i)(3 − 4i) = 11 + 2i, subtracted (R138). -/
theorem test_cmscc : after (.cmscc 0 0 1 0x0000000400000003 true) (opa 0x102 0x0000000200000001)
    (fun t => sent t == [.acc 0 1 (.add (-11) (-2)) true]) = true := by decide +kernel
/-- An addition beyond 72 bits clamps and sets the flag of clamping (R140, R143). -/
theorem test_acc_clamps : after (.fixedLatencyLand 0)
    (one (fun c => ({ c with acc := [(2, 0x7FFFFFFFFFFFFFFFFF)], pipe := [⟨0, 0, .acc 0 1 (.add 1 0) true⟩] } : Core)))
    (fun t => (Machine.core t.dev 0).accGet 2 == 0x7FFFFFFFFFFFFFFFFF && (Machine.core t.dev 0).num 0x105 == 1) = true := by
  decide +kernel

/-- R168's buffer of 10 bytes at 16: 24 + 3 wraps to 17. -/
theorem test_modulo_wraps : wrapAddr 24 3 10 = 17 ∧ wrapAddr 17 (-3) 10 = 24 := by decide +kernel
/-- The addressing word of the FIR's E-stream loads: A1, M1 = 32, modulo by L1 (the example after R168). -/
theorem test_fir_address : after (.lsuLd256 0 0 0x821) (one (fun c => ((c.put 0x81 0x1060).put 0xA1 32).put 0xC1 0x80))
    (fun t => (sent t).any (fun e => e == .port 0x81 0x1000)) = true := by decide +kernel
theorem test_load_signed : after (.lsuLd8s 0 0 1) (start (fun d => wrB (setCore 0 (Core.reset.put 0x81 0x40) (run0 d)) 0x20000040 0x80))
    (fun t => sent t == [.port 0x201 0xFFFFFFFFFFFFFF80]) = true := by decide +kernel
theorem test_store_little_endian : after (.lsuSt16 0 0 1) (one (fun c => (c.put 0x81 0x40).put 0x202 0x1234))
    (fun t => sent t == [.store 0 0x40 [0x34, 0x12]]) = true := by decide +kernel

/-- A branch three bundles back (R117). -/
theorem test_branch_back : after (.br 0 0xFFFFFFFFFFFFFFFD) (one (fun c => { c with pc := 0x400 }))
    (fun t => (Machine.core t.dev 0).pc == 0x340) = true := by decide +kernel
theorem test_call_links : after (.call 0 0x1000) (one (fun c => { c with pc := 0x400 }))
    (fun t => (Machine.core t.dev 0).pc == 0x1000 && sent t == [.port 0x9F 0x440]) = true := by decide +kernel
/-- A store at 0x7FF00 is refused with reason 0x12 (R170, R171). -/
theorem test_descriptor_store : after (.lsuSt32 0 0 1) (aimed 0x7FF00 0 0)
    (fun t => (Machine.core t.dev 0).level == 15 && (Machine.core t.dev 0).num 0xEC % 0x10000 == 0x1203) = true := by
  decide +kernel
/-- The slot that holds the example of R104: P2 is 0, so 5 goes to G7 for the next bundle. -/
theorem test_guarded_move : after (.bundleIssue 0) (queued (bundle 0 [0x20000000, 0x20000000, 0x20000000, 0x2A00A00E]))
    (fun t => sent t == [.port 7 5] && (Machine.core t.dev 0).pc == 64) = true := by decide +kernel

/-! ### The event controller -/

/-- The EVC runs, with register fields set. -/
def evcWith (l : List (Fld × Nat)) : State :=
  start (fun d => wr (l.foldl (fun a e => wr a e.1 e.2) (run0 d)) (hdrActive .evc) 1)

/-- Source 12 follows HALTED of pair 0, which is halted. -/
def haltedPair (trig : Nat) : State := start (fun d => wr (wr d (plyPstateState 0) 6) (evcCfgTrig 12) trig)

/-- A pulse of source 481 captured. -/
def pulsed : State := start (fun d => wr { d with evc := { d.evc with pulses := [481] } } (evcCfgTrig 481) 1)

theorem witness_EvcSources :
    (∀ trig ∈ [0, 1], awake (haltedPair trig).dev = true ∧ (haltedPair trig).dev.evc.asleep = false ∧
      inputLevel (haltedPair trig).dev 12 = some true ∧ srcBit (haltedPair trig).dev evcRaw 12 = false ∧
      isEdge (haltedPair trig).dev 12 = (trig == 1) ∧ presentedTo (haltedPair trig).dev 12 = none ∧
      heldSrc (haltedPair trig).dev 12 = false) ∧
    (isPulse 481 = true ∧ 481 ∈ pulsed.dev.evc.pulses ∧ isEdge pulsed.dev 481 = true ∧ presentedTo pulsed.dev 481 = none ∧
      srcBit pulsed.dev evcRaw 481 = false) ∧
    (∀ src ∈ [40, 575, 576, 1023], accepted State.reset .bootRom (evcSwset (src / 32)).off (2 ^ (src % 32)) = true ∧
      accepted State.reset .bootRom (evcPend (src / 32)).off (2 ^ (src % 32)) = true ∧
      presentedTo State.reset.dev src = none) := by decide +kernel

/-- Source 40 is pending at level 3 for pair 0. -/
def pending40 : State := evcWith [(evcPend 1, 0x100), (evcCfgCoreEn 40, 1), (evcCfgLevel 40, 3)]

/-- Source 40 is presented to pair 0, which has gone to its level. -/
def presented40 : State := start (fun d => let d1 := setCore 0 { Core.reset with entry := some ⟨40, 3, 0x1000, false⟩ } (run0 d)
  { d1 with evc := { d1.evc with presented := [(0, some 40)] } })

/-- Source 40 is ACTIVE on pair 0 at level 3, with its level input at 1. -/
def active40 : State :=
  start (fun d => setSrc evcRaw 40 true (setSrc evcActive 40 true (wr (wr d (evcActValid 0 3) 1) (evcActSrc 0 3) 40)))

theorem witness_EvcDelivery :
    (awake pending40.dev = true ∧ flag (stillCheck pending40.dev) (hdrActive .evc) = true ∧
      (stillCheck pending40.dev).evc.asleep = false ∧ pendingSrcs (stillCheck pending40.dev) = [40] ∧
      rd (stillCheck pending40.dev) (evcHoldoff 1) = 0 ∧ nextCore (stillCheck pending40.dev) 40 [] = some 0 ∧
      (Machine.core (stillCheck pending40.dev) 0).entry = none) ∧
    (awake presented40.dev = true ∧ tget (fun _ => none) presented40.dev.evc.presented 0 = some 40 ∧
      (Machine.core presented40.dev 0).entry = some ⟨40, 3, 0x1000, false⟩ ∧ canServe presented40.dev 0 = true ∧
      40 ∉ presented40.dev.evc.again) ∧
    (accepted active40 (.core 0) 0x20040 40 = true ∧ activeLevel active40.dev 0 40 = some 3 ∧
      presentedTo active40.dev 40 = none ∧ isEdge active40.dev 40 = false ∧ srcBit active40.dev evcRaw 40 = true) ∧
    (accepted active40 (.core 0) 0x20040 41 = true ∧ activeLevel active40.dev 0 41 = none) := by decide +kernel

/-- Pair 0 waits; the EVC watches its group. -/
def still : State := start (fun d => wr (wr (setCore 0 { Core.reset with waiting := some 0 } (run0 d)) evcStillLimit 9) evcStillGroup 1)

/-- Pair 0 waits, source 40 is watched, and sleep is asked for or in force. -/
def sleepy (asleep : Bool) : State :=
  start (fun d =>
    let d1 := wr (wr (setCore 0 { Core.reset with waiting := some 0 } (run0 d)) (evcAonSelValid 2) 1) (evcAonSelSrc 2) 40
    let d2 := wr d1 evcSleepPend (if asleep then 0 else 1)
    { d2 with evc := { d2.evc with asleep := asleep } })

theorem witness_StillnessAndSleep :
    (awake still.dev = true ∧ rd (stillCheck still.dev) evcStillLimit ≠ 0 ∧ stillGroup (stillCheck still.dev) ≠ [] ∧
      allWait (stillCheck still.dev) = true ∧ (stillCheck still.dev).evc.fired = false) ∧
    (accepted State.reset .bootRom evcSleepPend.off 1 = true ∧ anyAonSel State.reset.dev = false ∧
      rd State.reset.dev (hdrCode .evc) = 0 ∧ accepted State.reset .bootRom evcSleepPend.off 2 = true) ∧
    (accepted (sleepy false) .bootRom evcSleepPend.off 1 = true ∧ anyAonSel (sleepy false).dev = true ∧
      awake (sleepy false).dev = true ∧ maySleep (sleepy false).dev = true ∧ (sleepy false).dev.evc.asleep = false) ∧
    (∀ b : Bool, awake (sleepy b).dev = true ∧ flag (sleepy b).dev (evcAonSelValid 2) = true ∧
      (sleepy b).dev.evc.asleep = b) := by decide +kernel

/-- R194, R196: the entry saves the return address and goes to the level; the acknowledgement goes to the vector. -/
theorem test_evc_acknowledge : after (.evcAckSample 0) presented40 (fun t =>
    (Machine.core t.dev 0).pc == 0x1000 && rd t.dev (evcDelivered 0) == 1 && srcBit t.dev evcActive 40) = true := by
  decide +kernel

/-! ### The module -/

/-- Two commands wait. -/
def waiting2 : State := { State.reset with pending := [.playerAdvance, .seal] }

theorem witness_StepTakesTheFirstCommand : waiting2.pending = .playerAdvance :: [.seal] ∧ State.reset.pending = [] := by
  decide +kernel

theorem witness_QueueRunsInOrder : 2 ≤ waiting2.pending.length := by decide +kernel

theorem witness_RoleInvariant : roleOk waiting2.role = true ∧
    (match step waiting2 with | .next t => roleOk t.role | _ => false) = true := by decide +kernel

/-- A module without power. -/
def off : State := start (fun d => { d with bist := { d.bist with powered := false } })

theorem witness_OffModule : awake off.dev = false ∧ ofSupply .frameTick = false := by decide +kernel

theorem witness_RegisterAccesses :
    awake State.reset.dev = true ∧ reaches (.hank 0) 0x10000000 = false ∧ placeOf 0x4FFFFFFC = .hole ∧ placeOf 0x100 = .rom ∧
    placeOf 0x10000000 = .ram ∧ reaches .pcie 0x10000000 = true ∧ memForm 0x10000000 8 = true ∧
    guardOf State.reset.dev 0x10000000 8 = none ∧
    (placeOf 0x40010040 = .page (.hue 0) 0x10040 ∧ reaches (.hank 1) 0x40010040 = true ∧
      underTest State.reset.dev (.hue 0) = false ∧ mayWrite57 State.reset.dev (.hank 1) (.hue 0) 0x10040 = false) ∧
    (placeOf 0x40020040 = .page .evc 0x20040 ∧ mayWrite57 State.reset.dev .pcie .evc 0x20040 = true ∧
      hwOwned State.reset.dev .pcie .evc 0x20040 1 = true) ∧
    (∀ v ∈ [0, 1], accepted State.reset .pcie (blkBase .log + 0x1C) v = true) ∧
    accepted State.reset .pcie (blkBase .log + 0x20) 0 = true := by decide +kernel

/-- A block guards memory: the bobbin manager's contexts. -/
def guarding : State := start (fun d => wr (wr d bobCtxBase 0x1000) (hdrActive .bobbin) 1)

theorem witness_RegisterAccesses_guard : guardOf guarding.dev 0x10000000 8 = some .bobbin ∧ awake guarding.dev = true ∧
    (placeOf 0x40000048 = .page .mod 0x48 ∧ reaches .pcie 0x40000048 = true ∧ stampLow .mod (0x48 - blkBase .mod) = true ∧
      underTest State.reset.dev .mod = false) := by decide +kernel

/-- A block with its EN, ACTIVE, QUIESCING, PEND_EN and SOFT_RST as given. -/
def blockWith (b : Blk) (en active quiescing pend soft : Nat) : State :=
  start (fun d => wr (wr (wr (wr (wr d (hdrEn b) en) (hdrActive b) active) (hdrQuiescing b) quiescing) (hdrPendEn b) pend)
    (hdrSoftRst b) soft)

theorem witness_BlockStates :
    accepted State.reset .pcie (blkBase .cont + 8) 1 = true ∧ accepted State.reset .pcie (blkBase .cont + 8) 2 = true ∧
    rd State.reset.dev (hdrHalt .cont) = 0 ∧ flag State.reset.dev (hdrActive .cont) = false ∧
    flag State.reset.dev (hdrQuiescing .cont) = false ∧
    (accepted (blockWith .cont 0 0 1 0 0) .pcie (blkBase .cont + 8) 1 = true ∧
      flag (blockWith .cont 0 0 1 0 0).dev (hdrQuiescing .cont) = true ∧ tickBlk .cont = false) ∧
    (accepted (blockWith .cont 1 1 0 0 0) .pcie (blkBase .cont + 8) 0 = true ∧
      flag (blockWith .cont 1 1 0 0 0).dev (hdrEn .cont) = true ∧
      flag (blockWith .cont 1 1 0 0 0).dev (hdrActive .cont) = true) ∧
    (let s := as .owner (fun d => wr d (hdrEn .twin) 1)
     accepted s .pcie (blkBase .twin + 8) 0 = true ∧ flag s.dev (hdrEn .twin) = true ∧ s.role.state = .owner ∧
       flag s.dev (hdrHalt .twin) = false) ∧
    (let s := start (fun d => wr (wr d (hdrEn (.ply 1)) 1) (chtActMaskLo 1) 4)
     accepted s .pcie (blkBase (.ply 1) + 8) 0 = true ∧ flag s.dev (hdrEn (.ply 1)) = true ∧ actMask s.dev 1 ≠ 0) ∧
    (let s := start (fun d => wr d (hdrEn (.ply 1)) 1)
     accepted s .pcie (blkBase (.ply 1) + 8) 0 = true ∧ actMask s.dev 1 = 0) ∧
    (∀ pend ∈ [0, 1], awake (blockWith .cont 0 0 0 pend 1).dev = true ∧
      flag (blockWith .cont 0 0 0 pend 1).dev (hdrSoftRst .cont) = true ∧
      flag (blockWith .cont 0 0 0 pend 1).dev (hdrPendEn .cont) = (pend == 1)) ∧ tickBlk .seq = true := by decide +kernel

/-- The command asks for a change that is accepted, and concerns one module as given. -/
def asks (s : State) (alone : Option Bool) (c : Instr) : Bool :=
  match changeOf s c with
  | some (ini, off, v, op) => accepted s ini off v && (alone.isNone || alone == some (oneModule op))
  | none => false

theorem witness_ControlChanges :
    let changes (i : Initiator) : List Instr :=
      [.chtInval i 5, .invalAll i, .stagingCommit i 3, .arm i true, .cancel i true, .ctxWrite i 3, .hueReset i 3,
       .doorbellEnq i 3 200 9, .doorbellConsume i 3 200 7, .ptpStepReq i, .nightStart i, .nightAbort i, .load i, .adopt i,
       .wearRecordCommit i, .pairReset i 2, .shutdown i, .standby i, .wake i, .quiet i, .quietHold i, .releaseHold i, .join i,
       .modelCommit i, .passStart i, .passAbort i, .streamEnWrite i true 95 true, .streamEnWrite i false 127 true]
    (changes .pcie).all (asks State.reset none) = true ∧ (changes .pcie).all (asks (as .partner id) none) = true ∧
    (changes (.core 1)).all (asks (as .partner id) (some false)) = true ∧
    asks (as .partner id) (some true) (.arm (.core 1) false) = true ∧ (as .partner id).role.state = .partner := by decide +kernel

/-! ### Spindle -/

/-- Channel 5 with register fields set. -/
def chanWith (l : List (Fld × Nat)) (x : SpChan) : State :=
  start (fun d => spPut 5 x (l.foldl (fun a e => wr a e.1 e.2) d))

theorem witness_SpindleControls_writes :
    (let s := chanWith [] SpChan.empty
     s.dev.sp.pulses = [] ∧ (∀ v ∈ [1, 2], accepted s .pcie (spCh 5) v = true) ∧ flag s.dev (chChCtrlEn 5) = false ∧
       flag s.dev (chChStatusQuiescing 5) = false ∧ flag s.dev (chChStatusArmed 5) = false ∧
       flag s.dev (chChStatusActive 5) = false ∧ flag s.dev (chChStatusPendEn 5) = false) ∧
    (let s := chanWith [(chChStatusQuiescing 5, 1)] SpChan.empty
     accepted s .pcie (spCh 5) 1 = true ∧ flag s.dev (chChStatusQuiescing 5) = true) ∧
    (let s := chanWith [(chChCtrlEn 5, 1), (chShCfgSg 5, 1)] { SpChan.empty with reads := [⟨false, 0, 0, 8, [], 0, true⟩] }
     (∀ v ∈ [0, 3, 5, 9], accepted s .pcie (spCh 5) v = true) ∧ flag s.dev (chChCtrlEn 5) = true ∧
       flag s.dev (chChStatusQuiescing 5) = false ∧ flag s.dev (chChStatusActive 5) = false ∧ rd s.dev (chShCfgSg 5) ≠ 0 ∧
       rd s.dev (chShCfgTmode 5) ≠ 3 ∧ (spGet s.dev 5).reads ≠ []) := by decide +kernel

theorem witness_SpindleControls_events :
    (let s := chanWith [(chChCtrlEn 5, 1), (chActCfg 5, 0)] SpChan.empty
     awake s.dev = true ∧ (∀ x : Fin 128, x ≠ 5 → flag s.dev (chChCtrlEn x) = false) ∧ flag s.dev (chChCtrlEn 5) = true ∧
       actTrig s.dev 5 = 0 ∧ flag s.dev (chChStatusActive 5) = false ∧ flag s.dev (chChStatusLatched 5) = false) ∧
    (let s := chanWith [] { SpChan.empty with writes := [⟨false, 0, 0x10000000, 8, [], 0, true⟩] }
     awake s.dev = true ∧ s.dev.sp.pulses = [] ∧ (spGet s.dev 5).writes = [⟨false, 0, 0x10000000, 8, [], 0, true⟩] ∧
       flag s.dev (hdrHalt .spindle) = false) ∧
    (∀ line : Byte, line.toNat = 147 ∨ line.toNat = 159 ∨ line.toNat = 224 ∨ line.toNat = 255 →
      147 ≤ line.toNat ∧ line.toNat ≤ 159 ∨ 224 ≤ line.toNat) ∧
    ((spGet State.reset.dev 5).writes = [] ∧ (spGet State.reset.dev 5).reads = [] ∧
      (spGet State.reset.dev 5).lateReads = 0 ∧ (spGet State.reset.dev 5).lateWrites = 0) ∧
    (∀ r ∈ [[], [⟨false, 0, 0x10000000, 8, [], 0, true⟩]], let s := chanWith [] { SpChan.empty with writes := r, reads := r }
      (r = [] ∨ ((spGet s.dev 5).reads = r ∧ (spGet s.dev 5).writes = r)) ∧
      (2 ≤ (spGet s.dev 5).reads.length + (spGet s.dev 5).writes.length ∨ (spGet s.dev 5).reads.length + (spGet s.dev 5).writes.length ≤ 1)) ∧
    (let s := chanWith [] { SpChan.empty with lateReads := 1, lateWrites := 1 }
     (spGet s.dev 5).lateReads ≠ 0 ∧ (spGet s.dev 5).lateWrites ≠ 0) ∧
    (let s := chanWith [(chChCtrlEn 5, 1), (chChStatusStopped 5, 1), (chChStatusActive 5, 1), (chActCfg 5, 1)] SpChan.empty
     accepted s .pcie (spCh 5 + 0x24) 7 = true ∧ actTmode s.dev 5 ≠ 3) ∧
    (∀ pend ∈ [0, 1], flag (chanWith [(chChStatusQuiescing 5, 1), (chChStatusPendEn 5, pend)] SpChan.empty).dev
        (chChStatusQuiescing 5) = true ∧
      flag (chanWith [(chChStatusQuiescing 5, 1), (chChStatusPendEn 5, pend)] SpChan.empty).dev (chChStatusPendEn 5) = (pend == 1)) := by
  decide +kernel

/-- A dropped run of channel 5 has a write and a read out to the window of pair 3, which is frozen. -/
theorem witness_SpindleStops_window :
    let r : SpReq := ⟨false, 0, 0x23000040, 1, [], 0, false⟩
    let s := chanWith [(plyPstateState 3, 2)] { SpChan.empty with writes := [{ r with data := [7] }], reads := [r] }
    (spGet s.dev 5).writes = [⟨false, 0, 0x23000040, 1, [7], 0, false⟩] ∧ guardOf s.dev 0x23000040 1 = none ∧
      windowDrops s.dev 0x23000040 = true ∧ (spGet s.dev 5).reads = [r] := by
  decide +kernel

/-- An element of 200 bytes from SRAM to SRAM. -/
def elem200 : SpElem := ⟨0x10000060, 0x10001000, 200, 0, 0, [], 0x10001000, none, false⟩

/-- Channel 5 runs that element: how much is read and acknowledged, and what is held or in flight. -/
def moving (read acked : Nat) (held : List Byte) (reads writes : List SpReq) : State :=
  chanWith [(chChCtrlEn 5, 1), (chChStatusActive 5, 1)]
    { SpChan.empty with elems := [{ elem200 with read := read, acked := acked, held := held }], free := true, reads := reads,
                        writes := writes }

theorem witness_SpindleTransfer :
    (∀ held ∈ [[], [1, 2]], let s := moving 0 0 held [] []
      awake s.dev = true ∧ s.dev.sp.pulses = [] ∧ (spGet s.dev 5).elems = [{ elem200 with held := held }] ∧
      (spGet s.dev 5).free = true ∧ (∀ y : Fin 128, y ≠ 5 → flag s.dev (chChCtrlEn y) = false) ∧
      flag s.dev (chChCtrlEn 5) = true ∧ flag s.dev (chChStatusActive 5) = true ∧ flag s.dev (chChStatusStopped 5) = false ∧
      (spGet s.dev 5).stop = none ∧ 0 < spRoom s.dev 5 ∧ inFlight s.dev SpChan.reads < 64 ∧ inFlight s.dev SpChan.writes < 64) ∧
    (let s := moving 32 0 [] [⟨false, 0, 0x10000060, 32, [], 0, true⟩] []
     (spGet s.dev 5).reads = [⟨false, 0, 0x10000060, 32, [], 0, true⟩] ∧ (spGet s.dev 5).done = 0 ∧
       windowResets s.dev 0x10000060 = false ∧ windowDrops s.dev 0x10001000 = false) ∧
    (∀ acked ∈ [0, 198], let s := moving 200 acked [] [] [⟨false, 0, 0x10001000, 2, [1, 2], 0, true⟩]
      (spGet s.dev 5).writes = [⟨false, 0, 0x10001000, 2, [1, 2], 0, true⟩] ∧ guardOf s.dev 0x10001000 2 = none ∧
      (spGet s.dev 5).listDone = true ∧ flag s.dev (chChStatusArmed 5) = false ∧ bits (rd s.dev (chActCfg 5)) 16 14 = 0) := by
  decide +kernel

/-- R222: the first read request of an element at 0x10000060 ends at the next 128-byte boundary, after 32 bytes. -/
theorem test_spindle_read : after .spindleReadIssue (moving 0 0 [] [] [])
    (fun t => (spGet t.dev 5).reads == [⟨false, 0, 0x10000060, 32, [], 0, true⟩]) = true := by decide +kernel
/-- R227: the acknowledged bytes are in memory. -/
theorem test_spindle_write : after (.spindleWriteResponse 5 ⟨false, .none⟩) (moving 200 198 [] [] [⟨false, 0, 0x10001000, 2, [1, 2], 0, true⟩])
    (fun t => rdBytes t.dev 0x10001000 2 == [1, 2] && !flag t.dev (chChStatusActive 5)) = true := by decide +kernel

/-! ### Bobbins, the sequencer and the log -/

/-- A ring of 4 entries at 0x10100000: entry size, counts, owner. -/
def ring (esize head tail owner : Nat) : Ctx := ⟨0x10100000, 2, esize, true, owner, head, tail, 0, 0, false, 0, 0, false⟩

/-- The bobbin manager runs, with bobbin 7 as given. -/
def bobbins (c : Ctx) (d : Dev) : Dev := wrCtx 7 c (wr (wr d bobCtxBase 0x1000) (hdrActive .bobbin) 1)

/-- A bobbin operation of pair 0 in progress, on bobbin 7, triggered while the manager ran or not. -/
def bobbing (c : Ctx) (k : BobKind) (hue : Nat) (entry : List Byte) (run : Bool) : State :=
  start (fun d => setCore 0 { Core.reset with ext := [⟨5, 0x80, .bobbin k 7 entry run⟩] } (wr (bobbins c d) (plyCoreHue 0) hue))

/-- Some room, none, and nothing there. -/
theorem witness_BobbinOperations :
    (∀ c ∈ [ring 0 1 3 0, ring 0 1 5 0, ring 0 3 3 0], ∀ k ∈ [BobKind.enq, .deq, .peek, .occ],
      ∀ run : Bool, let s := bobbing c k 0 (List.replicate 16 9) run
      awake s.dev = true ∧ (Machine.core s.dev 0).ext = [⟨5, 0x80, .bobbin k 7 (List.replicate 16 9) run⟩] ∧
        ringSound s.dev 7 16 = true ∧ isCmdRing s.dev 7 = false ∧ rd s.dev (plyCoreHue 0) = 0 ∧
        occ (rdCtx s.dev 7) = occ c ∧ (∀ x ∈ [c.head, c.tail], ∀ w : Bool, ringFails s.dev (entryAddr c x) 16 w = false)) ∧
    (let d := (bobbing (ring 0 1 3 0) .deq 0 [] true).dev
     ∀ x ∈ [1, 3], ∀ w : Bool,
       ringFails { d with eccBad := [0x10100010, 0x10100030] } (entryAddr (ring 0 1 3 0) x) 16 w = true) ∧
    occ (ring 0 1 3 0) = 2 ∧ occ (ring 0 1 5 0) = ringSize (ring 0 1 5 0) ∧ occ (ring 0 3 3 0) = 0 ∧
    (let s := bobbing (ring 0 1 3 4) .deq 3 [] true
     ringSound s.dev 7 16 = true ∧ rd s.dev (plyCoreHue 0) ≠ 0 ∧ rd s.dev (plyCoreHue 0) ≠ (rdCtx s.dev 7).owner) ∧
    accepted (bobbing (ring 0 1 3 0) .occ 0 [] true) .pcie (hueCtxCmdRead 3).off 1 = true := by decide +kernel

/-- R243: an entry of 16 bytes goes to the place of TAIL. -/
theorem test_bobbin_enqueue : after (.bobbinOpLand 0 .none) (bobbing (ring 0 1 3 0) .enq 0 (List.replicate 16 9) true)
    (fun t => rdBytes t.dev 0x10100030 16 == List.replicate 16 9 && (rdCtx t.dev 7).tail == 4 &&
      (Machine.core t.dev 0).num 5 == 3 * 2 ^ 32) = true := by decide +kernel

/-- A START of live source 3 on zone 0 (R262). -/
def startWords : List Word := [1, 3, 0, 1, 0, 0, 0, 0]

/-- An announcement of source 128, in a state of R272. -/
def ann (st handle hue : Nat) : Ann :=
  ⟨st, BitVec.ofNat 64 handle, hue, 0, 128, 0, 1, 0, 0, 0, 1, 1, 0, 5000, 0, true⟩

/-- An item of 12 samples. -/
def item1 : List Byte := List.replicate 4 0 ++ [12, 0, 0, 0] ++ List.replicate 72 0

/-- The sequencer with that announcement in slot 2, bound to player 0 with item 1, in which there are 12 samples. -/
def announcing (st : Nat) : State :=
  start (fun d =>
    let d1 := wr (wr d (hdrActive .seq) 1) (hueResetting 3) 1
    { d1 with seq := { d1.seq with anns := [(2, some (ann st 0x3002 3))],
                                   players := [(0, ⟨some 2, true, 1, 0, 1, 2, false, false⟩)] },
              stor := { d1.stor with items := [(1, some item1)] } })

/-- A CANCEL of handle 0x3002. -/
def cancelWords : List Word := [2, 0, 0, 0, 0, 0, 0x3002, 0]

theorem witness_SequencerCommands :
    (let s := start (fun d => wr d (hueZonePerm 3 0) 1)
     awake s.dev = true ∧ startReason s.dev 3 startWords = 0 ∧ freeSlot s.dev = some 0 ∧
       bits (cmdWord startWords 1) 9 0 ≠ 0x3FD) ∧
    startReason State.reset.dev 3 startWords ≠ 0 ∧
    cmdRsv [0x100, 0, 0, 0, 0, 0, 0, 0] = true ∧
    (awake (announcing 2).dev = true ∧ cmdRsv cancelWords = false ∧ bit (cmdWord cancelWords 1) 15 = false ∧
      (annList (announcing 2).dev).find? (fun e => e.2.handle.toNat == cmdWord cancelWords 6 && (3 == 0 || e.2.hue == 3)) =
        some (2, ann 2 0x3002 3)) ∧
    (∀ e ∈ annList State.reset.dev, e.2.handle.toNat ≠ cmdWord cancelWords 6) ∧
    (twf (fun _ => none) (announcing 2).dev.seq.anns = true ∧ ∀ e ∈ annList (announcing 2).dev, e.2.hue = 3 → e.2.st ≠ 1) ∧
    (annGet (announcing 1).dev 2 = some (ann 1 0x3002 3) ∧ readyTimeout (announcing 1).dev ≤ (ann 1 0x3002 3).age) ∧
    (playerGet (announcing 2).dev 0).slot = some 2 ∧ annGet (announcing 2).dev 2 = some (ann 2 0x3002 3) ∧
    (flag (announcing 2).dev (hdrActive .seq) = true ∧ annList (announcing 2).dev = [(2, ann 2 0x3002 3)] ∧
      tget (fun _ => none) (announcing 2).dev.stor.items 1 = some item1 ∧ ofLe ((item1.drop 4).take 4) ≠ 0 ∧
      (playerGet (announcing 2).dev 0).finished = false ∧ (playerGet (announcing 2).dev 0).dead = false ∧
      (announcing 2).dev.clk.cycle < 108032 ∧ (announcing 2).dev.seq.advanced ≠ some (announcing 2).dev.clk.frame) ∧
    108032 ≤ (atCycle 108032 (announcing 2).dev).clk.cycle ∧
    flag (announcing 2).dev (hueResetting 3) = true ∧ (∀ e ∈ annList (announcing 2).dev, e.2.hue ≠ 4) ∧
    ∃ e ∈ annList (announcing 2).dev, e.2.hue = 3 := by decide +kernel

/-- R260: the handle of slot 0, hue 3, accepted while frame 0xFFFF…FFFF is computed. -/
theorem test_seq_start : after (.seqStart 3 startWords) (start (fun d => wr { d with clk := { d.clk with frame := 6 } } (hueZonePerm 3 0) 1))
    (fun t => (annGet t.dev 0).map (fun x => (x.st, x.handle, x.source)) == some (1, 0x53000, 3)) = true := by decide +kernel

/-- A log record. -/
def rec0 : LogRec := ⟨0, 0, 0x0100, 0, 1, 7, 8⟩

/-- The log runs with its ring in bobbin 7 and the records given, written again or not. -/
def logging (tail : Nat) (fifo series : List LogRec) (retry : Bool) : State :=
  start (fun d =>
    let d1 := wr (wr (bobbins (ring 2 1 tail 0) d) logBobbin 7) (hdrActive .log) 1
    { d1 with log := { d1.log with fifo := fifo, series := series, retry := retry } })

theorem witness_EventLog :
    (let s := start (fun d => wr d logSevMin 2); awake s.dev = true ∧ sevMin s.dev = 2) ∧
    (sevMin State.reset.dev = 0 ∧ State.reset.dev.log.fifo.length < 480) ∧
    (∀ n ∈ [480, 511, 512], (logging 2 (List.replicate n rec0) [] false).dev.log.fifo.length = n) ∧
    (∀ tail ∈ [2, 5], ∀ retry : Bool, let s := logging tail [rec0] [] retry
      awake s.dev = true ∧ logRingOk s.dev = true ∧ ringSound s.dev (rd s.dev logBobbin) 64 = true ∧
      ringFails s.dev (entryAddr (rdCtx s.dev (rd s.dev logBobbin)) (rdCtx s.dev (rd s.dev logBobbin)).tail) 64 true = false ∧
      flag s.dev (hdrActive .log) = true ∧ s.dev.log.fifo = [rec0] ∧ s.dev.log.series = [] ∧ s.dev.log.losses = [] ∧
      s.dev.log.other = 0 ∧ s.dev.log.retry = retry ∧
      decide (occ (rdCtx s.dev (rd s.dev logBobbin)) < ringSize (rdCtx s.dev (rd s.dev logBobbin))) = (tail == 2)) ∧
    (let s := logging 2 [] [rec0] false
     s.dev.log.series = [rec0] ∧ s.dev.log.retry = false ∧ logRingOk s.dev = true) := by decide +kernel

/-! ### Streams and network time -/

/-- A packet for stream 4: one channel of L24, one frame. -/
def packet (ts : W32) (payload : List Byte) : MediaPacket :=
  { net := 0, dst := 0xEF000001, src := 9, port := 5004, plain := true, checksumOk := true, vlanOk := true, rtpVersion := 2,
    rtpP := false, rtpCC := 0, pt := 97, ts := ts, payload := payload }

/-- Instance A runs, in frame 100, with stream 4 on leg A from that address. -/
def streaming (depth : Nat) : State :=
  start (fun d =>
    let d1 := wr (wr (wr d (hdrActive (.strm 0)) 1) (rxEn 4) 1) (rxLegA 4) 1
    let d2 := wr (wr (wr d1 (rxDstA 4) 0xEF000001) (rxPortA 4) 5004) (rxDepth 4) depth
    { d2 with clk := { d2.clk with frame := 100 } })

/-- Only stream 4 is enabled. -/
theorem streaming_only4 : ∀ n : Fin 128, n ≠ 4 → flag (streaming 2).dev (rxEn n) = false := by decide +kernel

/-- A stream that is not enabled accepts nothing. -/
theorem rxAccepts_off (d : Dev) (p : MediaPacket) (n : Nat) (h : flag d (rxEn n) = false) : rxAccepts d p n = false := by
  simp [rxAccepts, rxMatches, h]

theorem witness_StreamReceive :
    (awake State.reset.dev = true ∧ strmRunning State.reset.dev 0 = false) ∧
    (strmRunning (streaming 2).dev 0 = true ∧ flag (streaming 2).dev (strmVlanEn 0) = false) ∧
    (∀ n ∈ [3, 4], rxMatches (streaming 2).dev { packet 1200 [] with port := 6 } n = false) ∧
    (rxMatches (streaming 2).dev (packet 1200 []) 4 = true ∧ rxAccepts (streaming 2).dev (packet 1200 []) 4 = false) ∧
    ([1140, 1200, 1400].all (fun ts => rxAccepts (streaming 2).dev (packet ts (List.replicate 36 1)) 4) = true) ∧
    (let s := as .alone (fun d => wr (wr d (hdrActive (.strm 0)) 1) (strmPairIp 0) 7)
     strmRunning s.dev 0 = true ∧ rd s.dev (strmPairIp 0) = 7) ∧
    flag State.reset.dev (strmLinkUp 0) = false := by decide +kernel

theorem witness_StreamReceive_single (ts : W32) (n : Fin 128) (h : n ≠ 4) :
    rxAccepts (streaming 2).dev (packet ts (List.replicate 36 1)) n = false := rxAccepts_off _ _ _ (streaming_only4 n h)

/-- Late, in time and early: the first and last frames of the packet in frame 100. -/
theorem witness_StreamReceive_times :
    (rtpIndex (streaming 2).dev 0 1140 = 1140 ∧ 1140 / 12 + 2 < 100) ∧
    (rtpIndex (streaming 2).dev 0 1200 = 1200 ∧ 100 ≤ 1200 / 12 + 2 ∧ (1200 + 11) / 12 + 2 ≤ 115) ∧
    (rtpIndex (streaming 2).dev 0 1400 = 1400 ∧ 115 < (1400 + 11) / 12 + 2) ∧ rd (streaming 2).dev (rxRtpOffset 4) = 0 := by
  decide +kernel

/-- R281, R284: 36 bytes of L24 file twelve sample times, the first with the first three bytes. -/
theorem test_rx_packet : after (.rxPacket (packet 1200 ([0x12, 0x34, 0x56] ++ List.replicate 33 1))) (streaming 2)
    (fun t => (filedGet t.dev 0 4 1200).samples == [0x12345600] && (filedGet t.dev 0 4 1211).samples == [0x01010100] &&
      rd t.dev (strmRxPkts 0) == 1) = true := by decide +kernel

/-- The servo runs, in the state given. -/
def timing (st sel gmCapable : Nat) : State :=
  start (fun d => wr (wr (wr (wr (wr d (hdrActive .ptp) 1) ptpState st) ptpSel sel) ptpGmCapable gmCapable) (strmLinkUp 0) 1)

/-- An Announce of network A. -/
def announce0 : Announce := ⟨0, 0, 128, 6, 0x21, 0x4E5D, 128, 77, 2⟩

theorem witness_NetworkTime :
    (∀ st ∈ [0, 1, 2, 3], awake (timing st 0 0).dev = true ∧ ptpRunning (timing st 0 0).dev = true ∧
      ptpNet (timing st 0 0).dev = 0 ∧ (timing st 0 0).dev.ptp.gm = false ∧ ptpSelOf (timing st 0 0).dev = 0 ∧
      rd (timing st 0 0).dev ptpState = st ∧ flag (timing st 0 0).dev (strmLinkUp 0) = true ∧
      ptpBest (timing st 0 0).dev 0 = none ∧ flag (timing st 0 0).dev ptpGmCapable = false) ∧
    (flag (timing 1 0 1).dev ptpGmCapable = true ∧ announce0.net = 0) ∧
    (ptpRunning State.reset.dev = false ∧ flag State.reset.dev (strmLinkUp 0) = false ∧ State.reset.dev.ptp.running = false) ∧
    (let d := { (timing 1 0 1).dev with ptp := { (timing 1 0 1).dev.ptp with gm := true, delayReq := [(0, true)], running := true } }
     d.ptp.gm = true ∧ tget (fun _ => false) d.ptp.delayReq 0 = true ∧ d.ptp.running = true) := by decide +kernel

/-! ### Supervision, tags and wear -/

/-- Line 0 in service and supervised, with the night measurement; the table is in SRAM. -/
def line0Up (d : Dev) : Dev :=
  wrB (wrB (wrB (wr d chtTableBase 0x1000) 0x10000000 0x11) 0x10000028 3) 0x1000A000 0x13

/-- Line 0 of the engine as given, in the frame period given. -/
def supAt (frame : Word) (x : SupLine) (night : Option NightWin) : State :=
  start (fun d => { line0Up d with sup := { d.sup with lines := [(0, x)], night := night, ended := night },
                                   clk := { d.clk with frame := frame } })

/-- The same in frame 9000. -/
def supLineWith (x : SupLine) (night : Option NightWin) : State := supAt 9000 x night

/-- An estimate and a night result of frame 8983, whose sets are due 17 frames later, and of the frame after. -/
def est0 (f : Word) : SupEst := ⟨f, List.replicate 24 none, 0, 0, false, 2, none⟩
/-- A night result. -/
def night0 (f : Word) : NightSet := ⟨f, 8000, 0, 16, 0, 0, 0, 0, []⟩
/-- A window that has ended: no probe in any band. -/
def win0 : SupWin := ⟨3, 0, List.replicate 300 none, 0, [], none, []⟩

/-- A night window from frame 8000 on, with a group in its sweep or not. -/
def nightWin (g : Option Nat) (begun : List Nat) : NightWin := ⟨8000, 480000, 255, g, begun, 0, 0⟩

/-- A line in its sweep: playing or not, with the sense frames given. -/
def sweep0 (playing : Bool) (sense : List (Nat × Option (List (Int × Int)))) : NightLine :=
  ⟨playing, 0, false, false, sense, []⟩

theorem witness_SupervisionAndNight_windows :
    (awake State.reset.dev = true ∧ (supLine State.reset.dev 0).ended = none ∧ (supLine State.reset.dev 0).est = none ∧
      (supLine State.reset.dev 0).nightSet = none) ∧
    (let s := supLineWith { SupLine.reset with ended := some win0 } none
     (supLine s.dev 0).ended = some win0 ∧ bit win0.loud 0 = false ∧
       1024 * 2 ^ win0.acc < 4 * (win0.sense.filter (fun f => f.isNone)).length) ∧
    ([8983, 8984].all (fun f => let x : SupLine := { SupLine.reset with est := some (est0 f), nightSet := some (night0 f) }
      supLine (supLineWith x none).dev 0 == x) = true) ∧
    (let d := (supLineWith SupLine.reset none).dev
     d.clk.frame.toNat ≠ (8984 : Word).toNat + 17 ∧ d.clk.frame.toNat = (8983 : Word).toNat + 17 ∧
     [0, 0xFF, 0x100, 0x17F].all (fun o => inRam (resLine d 0 + o)) = true ∧
     guardOf d (resLine d 0) 0x100 ≠ some .bobbin ∧ guardOf d (resLine d 0 + 0x100) 0x80 ≠ some .bobbin) := by decide +kernel

/-- A night window that runs, in the frame period given, with line 0 as given. -/
def nightDev (frame : Word) (g : Option Nat) (x : SupLine) : Dev :=
  wr (supAt frame x (some (nightWin g (g.toList)))).dev supNightActive 1

/-- A line of the sweep. -/
def sweepLine (x : NightLine) : SupLine := { SupLine.reset with on := true, sweep := some x }

theorem witness_SupervisionAndNight_groups :
    (State.reset.dev.sup.night = none ∧ State.reset.dev.sup.ended = none) ∧
    (let d := nightDev 8001 none { SupLine.reset with on := true }
     d.sup.night = some (nightWin none []) ∧ d.sup.ended = some (nightWin none []) ∧ flag d supNightActive = true ∧
       bit 255 0 = true ∧ 0 ∉ (nightWin none []).begun ∧ (workFrame d).toNat = (8000 : Word).toNat + groupLen d * 0 ∧
       (supLine d 0).on = true ∧ entNightEn (entryNow d 0) = true ∧ emergency d 0 = false) ∧
    (workFrame (nightDev 8002 none SupLine.reset)).toNat ≠ (8000 : Word).toNat ∧
    (∀ b : Bool, let d := nightDev 8064 (some 0) (sweepLine (sweep0 b []))
      d.sup.night = some (nightWin (some 0) [0]) ∧ (supLine d 0).sweep = some (sweep0 b []) ∧ atFrame d (8000 + 63) = true) ∧
    atFrame (nightDev 8066 (some 0) SupLine.reset) (8000 + 63) = false ∧
    (let d := nightDev 12161 (some 0) SupLine.reset
     (workFrame d).toNat = 8000 + groupLen d ∧ d.clk.cycle ≤ 109568) ∧
    (let d := atCycle 109568 (nightDev 12160 (some 0) SupLine.reset)
     (workFrame d).toNat = 8000 + groupLen d - 1 ∧ 109568 ≤ d.clk.cycle) := by decide +kernel

/-- Every sense frame of step 0. -/
def sense0 : List (Nat × Option (List (Int × Int))) :=
  (List.range 244).map (fun i => (8064 + i, some (List.replicate 12 (0, 0))))

/-- Step 0 of `nightDev` with those frames. -/
def step0 : Dev := nightDev 8320 (some 0) SupLine.reset

theorem sense0_find : ∀ q : Fin 244, (sense0.find? (fun f => f.1 == 8064 + q.val)).map Prod.snd =
    some (some (List.replicate 12 (0, 0))) := by decide +kernel

/-- No sample of step 0 was lost. -/
theorem witness_SupervisionAndNight_received :
    let l := sweepSpan step0 0 (sweep0 true sense0) 8000 64 480 2879
    ¬ l.length < 4 * (l.filter (fun y => y.isNone)).length := by
  have hn : nSamp step0 = 12 := by decide +kernel
  have hb : rd step0 (supBulkDelay 0) = 48 := by decide +kernel
  have h : (sweepSpan step0 0 (sweep0 true sense0) 8000 64 480 2879).filter (fun y => y.isNone) = [] := by
    rw [List.filter_eq_nil_iff]
    intro y hy
    simp only [sweepSpan, hn, hb, List.mem_map, List.mem_range] at hy
    obtain ⟨i, hi, rfl⟩ := hy
    have hq := sense0_find ⟨(12 * (8000 + 64) + 480 + i + 48) / 12 - 8064, by omega⟩
    simp only [show 8064 + ((12 * (8000 + 64) + 480 + i + 48) / 12 - 8064) = (12 * (8000 + 64) + 480 + i + 48) / 12 by omega,
      Option.map_eq_some_iff] at hq
    obtain ⟨⟨a, b⟩, he, hb⟩ := hq
    simp only at hb
    simp [sweepSense, hn, sweep0, he, hb]
  simp [h]

theorem witness_SupervisionAndNight_steps :
    (∀ x ∈ [sweep0 false [], sweep0 true [], { sweep0 true [] with steps := [(0, (0, 0), (0, 0))] }],
      let d := nightDev 8320 (some 0) (sweepLine x)
      (supLine d 0).sweep = some x ∧ 0 < sweepSteps d ∧ atFrame d (8000 + 319 + 256 * 0) = true ∧ rd d (supBulkDelay 0) ≤ 144) ∧
    (let d := wr (nightDev 8320 (some 0) SupLine.reset) (supBulkDelay 0) 193
     (if is48 d then 144 else 192) < rd d (supBulkDelay 0)) ∧
    (let l (x : NightLine) := sweepSpan (nightDev 8320 (some 0) SupLine.reset) 0 x 8000 64 480 2879
     (l (sweep0 true [])).length < 4 * ((l (sweep0 true [])).filter (fun y => y.isNone)).length) := by
  decide +kernel

/-- More than 2 V on line 0 in frame 8100: every voltage unit stands for one volt. -/
theorem witness_SupervisionAndNight_over :
    let d0 := wr (wr (nightDev 8101 (some 0) (sweepLine (sweep0 true []))) (hdrActive .sup) 1) (supVScale 0) 0x3F800000
    let d := wr (wrBytes d0 0x10008000 ((List.range 12).flatMap (fun _ => [0, 0, 3, 0]))) (strmInBase 0) 0x100060
    supRunning d = true ∧ lineSup d 0 = true ∧ (supLine d 0).sweep = some (sweep0 true []) ∧ 64 ≤ groupFrame d 8100 ∧
      senseFrame d 0 = some (List.replicate 12 (3, 0)) ∧
      flt (fint 2) (rmsVolts d 0 (List.replicate 12 3)) = true := by decide +kernel

theorem test_night_cut_short :
    (let d := nightOver true false (nightDev 9000 (some 0) (sweepLine (sweep0 true [])))
     (supLine d 0).nightSet.map (fun x => x.flags / 32) = some 1 ∧ d.sup.night = none ∧ flag d supSweeping = false) := by
  decide +kernel

/-- The half-bits of an uplink that carries these bits (R346). -/
def halvesOf (l : List UpBit) : List Bool :=
  l.flatMap (fun x => match x with
    | .zero => [true, false] | .one => [false, true] | .collision => [true, true] | .empty => [false, false])

/-- An uplink that carries those bits. -/
def uplink (l : List UpBit) : TagUp := ⟨96, [], some 0, halvesOf l⟩

/-- The bits of bytes, the most significant first. -/
def upBytes (l : List Byte) : List UpBit :=
  l.flatMap (fun b => (List.range 8).map (fun i => if bit b.toNat (7 - i) then UpBit.one else .zero))

/-- A lane: its step, what it sends, its walk, what is left to do, and the bits measured. -/
def lane0 (step : Nat) (tx : Option TagTx) (walk : Option TagWalk) (todo : List (Nat × Nat)) (up : List UpBit) : TagLane :=
  ⟨0, step, tx, walk, [], todo, [], if up.isEmpty then none else some (uplink up)⟩

/-- Lane 0 at work, in frame 8000, with line 9 queued. -/
def tagging (lane : Option TagLane) : State :=
  start (fun d =>
    let d1 := wr (wr (line0Up d) (hdrActive .tag) 1) tagEnum 1
    { d1 with tag := { d1.tag with queue := [9], lanes := match lane with | none => [] | some l => [(0, some l)] },
              clk := { d1.clk with frame := 8000 } })

/-- A READ of page 1 of tag 5, sent or not. -/
def readTx (sent : Bool) : TagTx := ⟨0x11, 5, sent, 0⟩

/-- The lane that waits for its reply, with the bits measured. -/
def asked (up : List UpBit) : TagLane := lane0 2 (some (readTx true)) none [(0x11, 5), (0x12, 5)] up

/-- A walk before its first burst, and one with bits known. -/
def walk0 (first : Bool) (n : Nat) : TagWalk := ⟨List.replicate n false, first, [], []⟩

/-- Its reply from PREAMBLE to CRC, with the page given and the CRC as it is or not. -/
def replyUp (p : List Byte) (good : Bool) : List UpBit :=
  let body := tagBody 0x51 5 p
  upBytes ([0xAA, 0xAA, 0x2D, 0xD4] ++ body ++ beBytes 2 (if good then crc16 body else crc16 body ^^^ 1))

theorem witness_TagTransactions_lanes :
    (awake (tagging none).dev = true ∧ (tagging none).dev.tag.queue = [9] ∧ flag (tagging none).dev (hdrActive .tag) = true ∧
      flag (tagging none).dev tagEnum = true ∧ tagLane (tagging none).dev 0 = none) ∧
    (tagLane (tagging (some (lane0 1 none none [] []))).dev 0 = some (lane0 1 none none [] [])) ∧
    (∀ e ∈ [(0x12, 5), (0x22, 5)], tagLane (tagging (some (lane0 2 none none [e] []))).dev 0 = some (lane0 2 none none [e] [])) ∧
    (let s := tagging (some (lane0 2 (some (readTx false)) none [(0x11, 5)] []))
     tagLane s.dev 0 = some (lane0 2 (some (readTx false)) none [(0x11, 5)] []) ∧ is48 s.dev = false ∧
       s.dev.clk.frame.toNat % 8 = 0 ∧ emergency s.dev 0 = false ∧ clearOfNight s.dev 0 (txFrames 0x11) = true) ∧
    (¬ 7200 * 1000000000 ≤ (ptpNs State.reset.dev).toNat % 86400000000000) ∧
    (let d := { State.reset.dev with clk := { State.reset.dev.clk with frame := 57600000 } }
     (if rd d tagWriteOffset ≤ 86399 then rd d tagWriteOffset else 7200) * 1000000000 ≤ (ptpNs d).toNat % 86400000000000) := by
  decide +kernel

/-- Too few bits, bits that are all 0 and 1, a collision at the last, and none; before the first burst, in the midst and at
the last of a walk. -/
theorem witness_TagTransactions_walk :
    (∀ w ∈ [walk0 true 0, walk0 false 48, walk0 false 56, walk0 false 63],
      ∀ b ∈ [[], [.one, .zero, .zero, .one, .one, .one, .one, .one], List.replicate 7 .one ++ [.collision],
        List.replicate 8 .empty], let l := lane0 1 none (some w) [] b
      tagLane (tagging (some l)).dev 0 = some l ∧ laneBits l = b ∧ w.known.length < 64) ∧
    (UpBit.empty ∉ List.replicate 7 UpBit.one ++ [.collision]) ∧
    (List.replicate 7 UpBit.one ++ [UpBit.collision])[7]? = some .collision := by decide +kernel

theorem witness_TagTransactions_replies :
    (readTx true).cmd = 0x10 + 1 ∧ replyBits (readTx true) = (replyUp (List.replicate 32 7) true).length ∧
    (∀ b ∈ [[], [UpBit.empty], [.collision], replyUp (List.replicate 32 7) true, replyUp (List.replicate 32 7) false],
      tagLane (tagging (some (asked b))).dev 0 = some (asked b) ∧ laneBits (asked b) = b ∧
        replyBegun (asked b) = (b.head?.isSome && b.head? != some .empty)) ∧
    replyFrame (List.replicate 392 .collision) = none ∧
    replyFrame (replyUp (List.replicate 32 7) true) =
      some (tagBody 0x51 5 (List.replicate 32 7) ++ beBytes 2 (crc16 (tagBody 0x51 5 (List.replicate 32 7)))) ∧
    (∃ f, replyFrame (replyUp (List.replicate 32 7) false) = some f ∧
      ofBe (f.drop (f.length - 2)) ≠ crc16 (f.take (f.length - 2))) := by
  refine ⟨by decide +kernel, by decide +kernel, by decide +kernel, by decide +kernel, by decide +kernel,
    tagBody 0x51 5 (List.replicate 32 7) ++ beBytes 2 (crc16 (tagBody 0x51 5 (List.replicate 32 7)) ^^^ 1), ?_⟩
  decide +kernel

/-- R349: the check value of this CRC over "123456789". -/
theorem test_crc16 : crc16 [0x31, 0x32, 0x33, 0x34, 0x35, 0x36, 0x37, 0x38, 0x39] = 0x29B1 := by decide +kernel
/-- The check value of CRC-32C over "123456789" (R275, R414). -/
theorem test_crc32c : crc32c [0x31, 0x32, 0x33, 0x34, 0x35, 0x36, 0x37, 0x38, 0x39] = 0xE3069283 := by decide +kernel

/-- WEAR runs, or finishes its quiesce, in a frame that is a multiple of 64, with line 0 supervised. -/
def wearing (f : Fld) (cycle : Nat) : State :=
  start (fun d => { wr (line0Up d) f 1 with clk := { d.clk with frame := 6400, cycle := cycle } })

theorem witness_WearStep :
    (awake State.reset.dev = true ∧ flag State.reset.dev (hdrActive .wear) = false ∧
      flag State.reset.dev (hdrQuiescing .wear) = false) ∧
    (∀ f ∈ [hdrActive .wear, hdrQuiescing .wear], let s := wearing f 4095
      awake s.dev = true ∧ (flag s.dev (hdrActive .wear) = true ∨ flag s.dev (hdrQuiescing .wear) = true) ∧
        s.dev.clk.frame.toNat % 64 = 0 ∧ s.dev.clk.cycle < 4096 ∧
        s.dev.wear.stepped ≠ some s.dev.clk.frame ∧ lineSup s.dev 0 = true ∧ lineSup s.dev 1 = false) ∧
    ¬(wearing (hdrActive .wear) 4096).dev.clk.cycle < 4096 := by
  decide +kernel

/-! ### Lockstep and debug -/

/-- Pair 3 in a state, in frame 1000, with its lockstep state as given. -/
def plyWith (st : TwinState) (ps : Nat) (x : PlySt) : State :=
  as st (fun d => { wr d (plyPstateState 3) ps with ply := [(3, x)], clk := { d.clk with frame := 1000 } })

theorem witness_LockstepFaults :
    (∀ ps ∈ [1, 3, 4, 6, 7], ∀ faults ∈ [[], [900, 800]], let s := plyWith .alone ps { PlySt.reset with faults := faults, resetDone := true }
      awake s.dev = true ∧ pstate s.dev 3 = ps ∧ (ply s.dev 3).injecting = false ∧ (ply s.dev 3).faults = faults ∧
        paired s.role.state s.dev = false ∧ (ply s.dev 3).latent = [] ∧ sweptWord (Machine.core s.dev 3) 5 ≠ 9) ∧
    (1000 : Word).toNat - (800 : Word).toNat < 4800000 ∧
    (let s := plyWith .alone 2 { PlySt.reset with resetDone := true }
     ¬(pstate s.dev 3 = 1 ∨ pstate s.dev 3 = 3 ∨ pstate s.dev 3 = 4 ∨ pstate s.dev 3 = 6 ∨ pstate s.dev 3 = 7)) ∧
    (ply (plyWith .alone 3 { PlySt.reset with injecting := true }).dev 3).injecting = true := by decide +kernel

theorem witness_LockstepRecovery :
    (∀ ps ∈ [2, 4], let s := plyWith .alone ps { PlySt.reset with frozen := some 980, cold := ps == 4 }
      awake s.dev = true ∧ pstate s.dev 3 = ps ∧ (ply s.dev 3).frozen.isSome = true ∧ (ply s.dev 3).resetDone = false ∧
        (ply s.dev 3).injecting = false ∧ (ply s.dev 3).cold = (ps == 4)) ∧
    (ply State.reset.dev 3).frozen = none ∧
    (∀ released : Bool, let s := plyWith .alone 3 { PlySt.reset with injecting := true, released := released }
      (ply s.dev 3).injecting = true ∧ (ply s.dev 3).released = released ∧ pstate s.dev 3 = 3) ∧
    (∀ f ∈ [936, 937], let s := plyWith .owner 3 { PlySt.reset with frozen := some (BitVec.ofNat 64 f) }
      (ply s.dev 3).frozen = some (BitVec.ofNat 64 f) ∧ (ply s.dev 3).cold = false ∧ pstate s.dev 3 = 3) ∧
    (64 ≤ (1000 : Word).toNat - (936 : Word).toNat ∧ (1000 : Word).toNat - (937 : Word).toNat < 64) ∧
    (let s := plyWith .alone 5 { PlySt.reset with tested := true }
     accepted s .pcie (plyQuarRelease 3).off 1 = true) := by decide +kernel

/-- Pair 3 in a state, with a bundle at its pc and port 6 named to debug. -/
def debugged (ps : Nat) : State :=
  start (fun d => wr (setCore 3 { Core.reset with queue := [(0, bundle 0 [])] } (wr d (plyPstateState 3) ps)) (plyDbgPort 3) 6)

theorem witness_DebugAccess :
    (∀ ps ∈ [1, 7], ∀ v ∈ [1, 2, 4, 8, 16], accepted (debugged ps) .pcie (plyDbgHalt 3).off v = true) ∧
    pstate (debugged 1).dev 3 = 1 ∧ pstate (debugged 7).dev 3 = 7 ∧ rd (debugged 7).dev (plyDbgPort 3) < 0x80 ∧
    (Machine.core (debugged 7).dev 3).pipe = [] ∧ (Machine.core (debugged 7).dev 3).sync = [] ∧
    fetched { debugged 7 with dev := wr (debugged 7).dev (plyPstateState 3) 1 } 3 (bundle 0 []) = true ∧
    illegal (bundle 0 []) = none := by decide +kernel

/-! ### The twin -/

/-- A module in a twin state with the link up on four lanes, and the twin block changed. -/
def linked (st : TwinState) (f : TwinSt → TwinSt) : State :=
  as st (fun d => { d with twin := f { d.twin with linkUp := true, lanes := 15 } })

theorem witness_TwinMessageOrder :
    awake State.reset.dev = true ∧ msgOf (.sealRx 1 9 2) = some 1 ∧ State.reset.dev.twin.linkUp = false ∧
    (linked .partner id).dev.twin.linkUp = true ∧ fresh (linked .partner id).dev 0 = false ∧
    fresh (linked .partner id).dev 1 = true ∧
    fresh (linked .partner (fun t => { t with rxLseq := 0xFFFFFFFF })).dev 0 = true := by decide +kernel

/-- The link is up, in frame 100, with stream 4 of one channel as in `streaming`. -/
def linkedStream : State :=
  { linked .partner id with dev := { (streaming 2).dev with twin := (linked .partner id).dev.twin } }

theorem witness_TwinInputsAndChanges :
    fresh linkedStream.dev 1 = true ∧ (List.replicate 36 (1 : Byte)).length = rxPayload linkedStream.dev 4 ∧
    (List.replicate 35 (1 : Byte)).length ≠ rxPayload linkedStream.dev 4 ∧
    rtpIndex linkedStream.dev (rd linkedStream.dev (rxRtpOffset 4)) 1140 = 1140 ∧ (1140 + 11) / 12 + 2 < 100 ∧
    rtpIndex linkedStream.dev (rd linkedStream.dev (rxRtpOffset 4)) 1200 = 1200 ∧ 100 ≤ 1200 / 12 + 2 ∧
    ownsTdm (linked .owner id).role.state = true ∧ ownsTdm (linked .partner id).role.state = false ∧
    (linked .partner id).dev.commit.held = [] ∧ sealComplete (linked .partner id).dev 0 = true := by decide +kernel

theorem witness_TwinAgreement :
    (∀ st ∈ [TwinState.owner, .partner], let s := linked st (fun t =>
        { t with ownDigest := some (0xFFFFFFFFFFFFFFFF, 5), ownHash := [(hashKey true 3, some 5)] })
      fresh s.dev 1 = true ∧ s.role.state = st ∧ s.dev.twin.ownDigest = some (0xFFFFFFFFFFFFFFFF, 5) ∧
        workFrame s.dev = 0xFFFFFFFFFFFFFFFF ∧ tget (fun _ => none) s.dev.twin.ownHash (hashKey true 3) = some 5 ∧
        tget (fun _ => none) s.dev.twin.ownHash (hashKey true 4) = none) ∧
    (let s := linked .alone (fun t => { t with peer := .quiet })
     s.role.state = .alone ∧ s.dev.twin.peer = .quiet) ∧
    (let s : State := { linked .alone id with dev := wr (linked .alone id).dev (plyPstateState 3) 3 }
     fresh s.dev 1 = true ∧ inRam 0x23000040 = true ∧ inLocal 0x23000040 = true ∧
       pstate s.dev ((0x23000040 - 0x20000000) / 0x01000000) = 3 ∧ (ply s.dev 3).copied = false) ∧
    (let s : State := { linked .owner id with dev := { (linked .owner id).dev with
        cht := { (linked .owner id).dev.cht with moves := [⟨7, 1, 2, 3, false, true, 0⟩] } } }
     fresh s.dev 1 = true ∧ s.role.state ≠ .joining ∧ s.dev.cht.moves = [⟨7, 1, 2, 3, false, true, 0⟩] ∧
       (0x23000040 - 0x20000000) / 0x01000000 = 3 ∧ pstate s.dev 3 ≠ 3) ∧
    (inRam 0x10000040 = true ∧ inLocal 0x10000040 = false ∧ (linked .joining id).role.state = .joining) := by decide +kernel

/-- An owner that refuses output 3, whose entry names port 5 and slot 2, in the shadow's time. -/
def shadowed : State :=
  let s := linked .owner (fun t => { t with refused := [⟨3, 0x1250000 <<< 64, []⟩] })
  { s with dev := { s.dev with clk := ⟨0, 110000, 0⟩ } }

theorem witness_TwinAgreement_shadow :
    fresh shadowed.dev 1 = true ∧ shadowed.role.state ≠ .alone ∧ (∀ r ∈ shadowed.dev.twin.refused,
      entTdmValid r.entry = true ∧ entTdmPort r.entry = 5 ∧ entTdmSlot r.entry = 2) ∧
    109568 ≤ shadowed.dev.clk.cycle ∧ shadowed.dev.clk.cycle ≤ 117760 := by decide +kernel

/-- A move that a postponed switch leaves behind, and a joiner. -/
theorem witness_TwinAgreement_tail :
    (let d := { (linked .owner id).dev with cht := { (linked .owner id).dev.cht with tail := [⟨7, 1, 2, 3, false, true, 0⟩] } }
     fresh d 1 = true ∧ d.cht.moves = [] ∧ d.cht.tail = [⟨7, 1, 2, 3, false, true, 0⟩] ∧ pstate d 3 ≠ 3) ∧
    (fresh (linked .joining id).dev 1 = true ∧ (linked .joining id).role.state = .joining) := by decide +kernel

/-- A HELLO of slot A or B in a state. -/
def helloOf (b : Bool) (st : TwinState) : Hello := ⟨b, st, 7, 0, false, false⟩

theorem witness_TwinPairing :
    (awake State.reset.dev = true ∧ State.reset.dev.twin.linkUp = false) ∧
    ((linked .startUp id).dev.twin.linkUp = true ∧ fresh (linked .startUp id).dev 1 = true ∧
      fresh (linked .partner id).dev 1 = true ∧ slotB (linked .startUp id).dev = false ∧
      (helloOf false .startUp).slotB = slotB (linked .startUp id).dev ∧
      (helloOf true .owner).slotB ≠ slotB (linked .startUp id).dev ∧ (helloOf true .quiet).slotB ≠ slotB (linked .startUp id).dev) ∧
    laneCount (onTwin (fun t => { t with lanes := t.lanes &&& 7 }) (linked .owner id).dev) ≥ 3 ∧
    laneCount (onTwin (fun t => { t with lanes := t.lanes &&& 3 }) (linked .owner id).dev) < 3 ∧
    flag State.reset.dev (hdrActive .twin) = false ∧ flag (start (fun d => wr d (hdrActive .twin) 1)).dev (hdrActive .twin) = true ∧
    (bit (linked .owner id).dev.twin.lanes 2 = true ∧ laneCount (linked .owner id).dev = 4 ∧
      laneCount (linked .owner (fun t => { t with lanes := 7 })).dev ≤ 3) := by decide +kernel

theorem test_crc_error_counts :
    after (.linkRx ⟨[], 1⟩ 5 3) (linked .owner id) (fun t =>
      rd t.dev twinCrcErrCount == 1 && t.dev.twin == (linked .owner id).dev.twin) = true := by decide +kernel

/-- The heartbeat test in the middle of a sample: wired or not, with the line and the link path held or missed. -/
def beating (st : TwinState) (wired line link : Bool) : State :=
  let s := linked st (fun t => { t with peerLine := line, beats := if link then [] else [0] })
  { s with dev := wr s.dev twinTwinCfgWired (b2n wired) }

theorem witness_TwinTimeouts_heartbeat :
    flag (beating .owner false true true).dev twinTwinCfgWired = false ∧
    (∀ line link : Bool, ∀ st ∈ [TwinState.partner, .owner, .quiet, .alone], let s := beating st true line link
      awake s.dev = true ∧ flag s.dev twinTwinCfgWired = true ∧ (true == s.dev.twin.peerLine) = line ∧
        (!s.dev.twin.beats.contains s.dev.clk.sample) = link ∧ s.dev.bist.bootFailed = false ∧ s.dev.twin.abdicatedAt = none ∧ s.role.state = st ∧ s.role.hold = false ∧ s.dev.twin.peerSilent = false) := by
  decide +kernel

/-- A module that watches its peer for `n` frames, with the link down. -/
def watching (st : TwinState) (wired : Bool) (n : Nat) (witness : Bool) : State :=
  as st (fun d => { wr d twinTwinCfgWired (b2n wired) with twin := { d.twin with split := some n, witness := witness } })

theorem witness_TwinTimeouts_link :
    (State.reset.dev.twin.linkUp = false ∧ State.reset.dev.twin.unacked = [] ∧ State.reset.dev.twin.split = none) ∧
    (∀ toggled : Bool, ∀ st ∈ [TwinState.owner, .partner],
      let s := { linked st (fun t => { t with peerToggled := toggled }) with
                 dev := wr (linked st (fun t => { t with peerToggled := toggled })).dev twinTwinCfgWired 1 }
      awake s.dev = true ∧ s.dev.twin.linkUp = true ∧ flag s.dev twinTwinCfgWired = true ∧ s.dev.twin.peerToggled = toggled) ∧
    flag (wr (linked .owner id).dev twinTwinCfgWired 0) twinTwinCfgWired = false ∧
    (∀ n ∈ [2, 3], (linked .owner (fun t => { t with unacked := [⟨⟨1, false, 0, .sealAck 5⟩, n⟩] })).dev.twin.unacked = [⟨⟨1, false, 0, .sealAck 5⟩, n⟩]) := by
  decide +kernel

theorem witness_TwinTimeouts_watch :
    (∀ st ∈ [TwinState.owner, .partner, .startUp], ∀ w : Bool, ∀ n ∈ [7, 16],
      (watching st false n w).dev.twin.split = some n ∧ flag (watching st false n w).dev twinTwinCfgWired = false ∧
        (watching st false n w).dev.twin.linkUp = false ∧ (watching st false n w).dev.twin.witness = w ∧
        (watching st false n w).role.state = st) ∧
    (splitFrames .owner false false = 16 ∧ splitFrames .partner false false = 8 ∧ splitFrames .startUp false false = 8 ∧
      splitFrames .startUp true false = 0 ∧ flag (watching .startUp true 0 false).dev twinTwinCfgWired = true) ∧
    accepted State.reset .pcie twinWdogKick.off 1 = true ∧ rd State.reset.dev twinWdogFrames = 0 ∧
    (let s := as .alone (fun d => { wr d twinWdogFrames 100 with twin := { d.twin with wdog := 100 } })
     rd s.dev twinWdogFrames = 100 ∧ s.dev.twin.wdog = 100) ∧
    (let s := as .joining (fun d => { d with twin := { d.twin with joinAge := 240000 } })
     s.role.state = .joining ∧ 240000 ≤ s.dev.twin.joinAge) := by decide +kernel

/-! ### Power, self-test and storage -/

/-- Both images are empty at reset; the first index is under the quick test, with or without its golden row. An image
that boots cannot be written out: the fused keys are free. -/
theorem witness_StartUp :
    State.reset.dev.bist.booted = false ∧ imageValid State.reset.dev false = false ∧ imageValid State.reset.dev true = false ∧
    imageChoice State.reset.dev false false = none ∧ imageChoice State.reset.dev true false = some false ∧
    (let d := { State.reset.dev with bist := { State.reset.dev.bist with booted := true, tried := 3, quick := some [9] } }
     awake d = true ∧ d.bist.booted = true ∧ d.bist.tried ≠ 0 ∧ bit d.bist.tried 0 = true ∧ bit d.bist.tried 2 = false ∧
       judge d.bist.quick 0 9 = 1 ∧ judge d.bist.quick 0 8 = 2) := by decide +kernel

theorem witness_SupplyAndReset :
    (∀ v ∈ [0, 1], flag (start (fun d => wr d bistPstatusPwrAOk v)).dev bistPstatusPwrAOk = (v == 1)) ∧
    pmode State.reset.dev ≠ 6 ∧ pmode (start (fun d => wr d bistPstatusPmode 6)).dev = 6 := by decide +kernel

/-- BIST in a PMODE with the index of CP5 under test and its golden row as given. -/
def testing (mode : Nat) (l : List Nat) (golden : Option (List Word)) : State :=
  start (fun d => { wr d bistPstatusPmode mode with bist := { d.bist with testing := l, golden := golden } })

theorem witness_SelfTestAndStandby :
    (awake State.reset.dev = true ∧ accepted State.reset .pcie bistRun.off 8 = true ∧
      flag State.reset.dev bistPstatusBusy = false ∧ runOk .startUp State.reset.dev 0 = true) ∧
    runOk .startUp (start (fun d => wr d (hdrEn (.ply 0)) 1)).dev 0 = false ∧
    (let s := start (fun d => wr d bistPstatusBusy 1)
     accepted s .pcie bistRun.off 8 = true ∧ flag s.dev bistPstatusBusy = true) ∧
    (∀ g ∈ [none, some [9], some [8]], let s := testing 0 [0] g
      awake s.dev = true ∧ (0 : Nat) ∈ s.dev.bist.testing ∧ s.dev.bist.golden = g) ∧
    (judge none 0 9 = 3 ∧ judge (some [9]) 0 9 = 1 ∧ judge (some [8]) 0 9 = 2) ∧
    (pmode (testing 1 [] none).dev = 1 ∧ (testing 1 [] none).dev.bist.testing = [] ∧ awake (testing 1 [] none).dev = true ∧
      (allBlks.all (fun b => !flag (testing 1 [] none).dev (hdrQuiescing b))) = true ∧
      ({ (testing 1 [] none).dev.bist with group := 5 } : BistSt).group = 5) ∧
    (∀ i : Fin 64, rdB (testing 1 [] none).dev (recSlot 0 + i.val) = 0xFF) ∧
    (pmode (testing 3 [] none).dev = 3 ∧ awake (testing 3 [] none).dev = true ∧
      (gatedBlks.all (fun b => !flag (testing 3 [] none).dev (hdrQuiescing b))) = true) ∧
    (pmode (testing 5 [] none).dev = 5 ∧ awake (testing 5 [] none).dev = true ∧ (testing 5 [] none).dev.bist.saved = none ∧
      (testing 5 [] none).dev.bist.savedChans = [] ∧
      flag (wr (testing 5 [] none).dev (hdrEn (.ply 2)) 1) (hdrEn (.ply 2)) = true) := by decide +kernel

/-- A storage operation in progress. -/
def storing (o : StorOp) : State := start (fun d => { d with stor := { d.stor with op := some o } })

theorem witness_Storage :
    (awake State.reset.dev = true ∧ State.reset.dev.stor.logPend = [] ∧ State.reset.dev.stor.op = none) ∧
    (start (fun d => { d with stor := { d.stor with logPend := [(5, [1])] } })).dev.stor.logPend = [(5, [1])] ∧
    (∀ n ∈ [1, 2, 3, 4, 5],
      accepted State.reset .pcie storCmdOp.off (putBit (putBits (rdw State.reset.dev storCmdOp.off).toNat 2 0 n) 31 true) = true ∧
      flag State.reset.dev storCmdStatusBusy = false ∧ (storing ⟨n, 0, 0, 64⟩).dev.stor.op = some ⟨n, 0, 0, 64⟩) ∧
    storReason State.reset.dev ⟨5, 0, 0, 0⟩ = 0 ∧ storReason State.reset.dev ⟨0, 0, 0, 0⟩ ≠ 0 := by decide +kernel

/-! ### Contacts, serial ports, relays -/

/-- The contact block runs with input 4 enabled and port 1 enabled, and its queues in bobbin 7. -/
def contacts (x : Serial) (c : Contact) (tail : Nat) : State :=
  start (fun d =>
    let d1 := wr (wr (wr (bobbins (ring 0 1 tail 0) d) (hdrActive .cont) 1) contEnable 16) (contPortEn 1) 1
    let d2 := wr (wr (wr (wr d1 (contRxQ 1) 7) (contRxValid 1) 1) (contTxQ 1) 7) (contTxValid 1) 1
    { d2 with cont := { d2.cont with inputs := [(4, c)], ports := [(1, x)] } })

theorem witness_ContactsAndRelays :
    (contRunning State.reset.dev = false ∧ contClass (contThresholds State.reset.dev) 1000 = 1) ∧
    (∀ run ∈ [0, 2, 3], let s := contacts Serial.reset ⟨1, run⟩ 3
      awake s.dev = true ∧ contRunning s.dev = true ∧ bit (rd s.dev contEnable) 4 = true ∧
        tget (fun _ => Contact.reset) s.dev.cont.inputs 4 = ⟨1, run⟩ ∧ contDebounceN s.dev = 4 ∧ rd s.dev (contState 4) ≠ 1) ∧
    (∀ n ∈ [12, 13], let s := contacts ⟨List.replicate n 0x41, 0⟩ Contact.reset 3
      flag s.dev (contPortEn 1) = true ∧ (serialPort s.dev 1).rx = List.replicate n 0x41 ∧ (serialPort s.dev 1).rx ≠ []) ∧
    (∀ tail ∈ [1, 3, 5], let s := contacts Serial.reset Contact.reset tail
      flag s.dev (contRxValid 1) = true ∧ flag s.dev (contTxValid 1) = true ∧ rd s.dev (contRxQ 1) = 7 ∧ rd s.dev (contTxQ 1) = 7 ∧
        ringSound s.dev 7 16 = true ∧ occ (rdCtx s.dev 7) = tail - 1) ∧ ringSize (ring 0 1 5 0) = 4 ∧
    (accepted State.reset .pcie relOut.off 0xFFFF = true ∧ bit State.reset.dev.cont.relOn 3 = false ∧
      bit (start (fun d => { d with cont := { d.cont with relOn := 8 } })).dev.cont.relOn 3 = true) := by decide +kernel

/-- R448: 1,000 Ω for the fourth time is ACTIVE. -/
theorem test_contact_debounce : after (.contactReading 4 1000) (contacts Serial.reset ⟨1, 3⟩ 3)
    (fun t => rd t.dev (contState 4) == 1 && bit (rd t.dev contChanged) 4) = true := by decide +kernel

/-! ### The frame timeline -/

theorem witness_FrameTick :
    (awake State.reset.dev = true ∧ State.reset.dev.commit.held = []) ∧
    (let s := as .alone (fun d => { d with commit := { d.commit with held := [⟨5, .pairReset 3, none⟩] } })
     s.role.state = .alone ∧ s.dev.twin.sent = none ∧ s.dev.commit.held = [⟨5, .pairReset 3, none⟩] ∧ pstate s.dev 3 ≠ 5 ∧
       (ply s.dev 3).latent = [] ∧ flag s.dev (hdrQuiescing (.ply 3)) = false) ∧
    ((linked .owner id).dev.twin.sealed = none ∧ (linked .partner id).dev.twin.sealHeld = none) ∧
    (∀ b : Bool,
      let s := { linked .startUp (fun t => { t with peerHello := some (helloOf (!b) .startUp) }) with
                 dev := wr (linked .startUp (fun t => { t with peerHello := some (helloOf (!b) .startUp) })).dev modSlotB (b2n b) }
      awake s.dev = true ∧ s.role.state = .startUp ∧ s.dev.twin.peerHello = some (helloOf (!b) .startUp) ∧
        s.dev.twin.linkUp = true ∧ slotB s.dev = b ∧ s.dev.commit.held = [] ∧ s.dev.twin.dying = false ∧ s.dev.twin.stopping = false) ∧
    (let s := as .owner (fun d => { d with twin := { d.twin with dying := true } })
     s.dev.twin.dying = true ∧ roleOk s.role = true ∧ s.dev.commit.held = []) := by decide +kernel

/-- The CHT computes frame 99 in the period of frame 100, with a switch armed for a frame, and channel 5 waiting for line 144. -/
def computing (f : Word) : State :=
  as .alone (fun d =>
    let d1 := wr (wr d (chChCtrlEn 5) 1) (chActCfg 5) (144 * 16)
    { d1 with clk := { d1.clk with frame := 100 },
              cht := { d1.cht with armed := some (f, nextBank d), computing := some 99 } })


theorem witness_FrameInstants :
    (awake State.reset.dev = true ∧ State.reset.dev.cht.armed = none ∧ State.reset.dev.cht.computing = none ∧
      State.reset.dev.twin.peerDigest = none ∧ State.reset.dev.twin.peerHash = []) ∧
    ((computing 101).dev.cht.armed = some (101, nextBank State.reset.dev) ∧ (101 : Word) ≠ (computing 101).dev.clk.frame) ∧
    ((computing 100).dev.cht.armed = some ((computing 100).dev.clk.frame, nextBank State.reset.dev) ∧
      (computing 100).dev.cht.computing = some 99 ∧ (computing 100).dev.cht.overran = [] ∧ (computing 100).dev.sp.pulses = [] ∧
      (∀ x : Fin 128, x ≠ 5 → flag (computing 100).dev (chChCtrlEn x) = false) ∧
      flag (computing 100).dev (chChCtrlEn 5) = true ∧ actTrig (computing 100).dev 5 = 144 ∧
      flag (computing 100).dev (chChStatusActive 5) = false ∧ flag (computing 100).dev (chChStatusLatched 5) = false ∧
      (computing 100).role.state = .alone) ∧
    (ownsTdm State.reset.role.state = false ∧ ownsTdm (linked .owner id).role.state = true ∧
      (linked .owner id).dev.twin.linkUp = true ∧ (as .owner id).dev.twin.linkUp = false) := by decide +kernel

/-- R27: the seal of frame 100 covers every change numbered so far, and goes to the peer. -/
theorem test_seal : after .seal (linked .owner id) (fun t => t.dev.twin.sealed == some (0, 0) &&
    (match t.dev.out.apdin.map ApdinMsg.msg with | [.seal 0 0] => true | _ => false)) = true := by decide +kernel

theorem witness_Samples :
    (awake State.reset.dev = true ∧ nSamp State.reset.dev = 12 ∧ nSamp (start (fun d => wr d modRate48 1)).dev = 6 ∧
      ∀ k : Fin 12, flag State.reset.dev (hdrQuiescing (.tdm k)) = false) ∧
    (let s := linked .owner id
     let d := wr (wr s.dev (tdmOutEn 3) 1) (hdrActive (.tdm 3)) 1
     s.role.beating = true ∧ d.twin.linkUp = true ∧ tdmDrives .owner d 3 = true ∧ ownsTdm .owner = true) ∧
    (accepted State.reset (.core 3) (0x50080 + 4 * 3) 0 = true ∧ accepted State.reset (.core 3) (0x50080 + 4 * 3) 1 = true ∧
      rdN State.reset.dev (localBase 3 + 0x7FF00) 4 = 0) := by decide +kernel

/-! ### The management gateway -/

/-- FIPS 180-4's example: SHA-256 of "abc". -/
theorem test_sha256 : sha256 [0x61, 0x62, 0x63] =
    [0xba, 0x78, 0x16, 0xbf, 0x8f, 0x01, 0xcf, 0xea, 0x41, 0x41, 0x40, 0xde, 0x5d, 0xae, 0x22, 0x23, 0xb0, 0x03, 0x61, 0xa3,
     0x96, 0x17, 0x7a, 0x9c, 0xb4, 0x10, 0xff, 0x61, 0xf2, 0x00, 0x15, 0xad] := by decide +kernel

/-- A request of H0: SEQ, and one operation, a read of an address. -/
def request (seq addr : Nat) : List Byte :=
  [0x48, 0x4B, 1, 0, 0, 1, 0, 0] ++ leBytes 8 seq ++ leBytes 8 0 ++ ([1, 0, 0, 0] ++ leBytes 4 0 ++ leBytes 8 addr)

/-- The request with its tag under key 5. -/
def tagged (seq addr : Nat) : List Byte := request seq addr ++ hankTag 5 (request seq addr)

/-- The gateway runs, with key 5 for H0 and its record of H0 changed. -/
def gateway (f : Gw → Gw) : State :=
  start (fun d => { wr d (hdrActive .gw) 1 with gw := f { d.gw with keys := [(0, some 5)], last := [(0, 7)] } })

/-- A request from management port 1, to port 18507. -/
def asker : HankFrom := ⟨1, 0x0A000001, 40000, 0x2437⟩

theorem witness_HankRequests_tag : hankFormat (tagged 8 0x40000048) = true ∧
    (tagged 8 0x40000048).drop ((tagged 8 0x40000048).length - 16) =
      hankTag 5 ((tagged 8 0x40000048).take ((tagged 8 0x40000048).length - 16)) := by decide +kernel

theorem witness_HankRequests_bad : hankFormat [] = false ∧ hankFormat (request 8 0x40000048 ++ List.replicate 16 0) = true ∧
    (request 8 0x40000048 ++ List.replicate 16 0).drop 40 ≠ hankTag 5 (request 8 0x40000048) := by decide +kernel

theorem witness_HankRequests :
    (flag State.reset.dev (hdrActive .gw) = false ∧ keyOf State.reset.dev 0 = none) ∧
    (asker.to_.toNat = rd (gateway id).dev gwHankPort ∧ (1 : BitVec 16).toNat ≠ rd (gateway id).dev gwHankPort) ∧
    (awake (gateway id).dev = true ∧ flag (gateway id).dev (hdrActive .gw) = true ∧ keyOf (gateway id).dev 0 = some 5 ∧
      tget (fun _ => false) (gateway id).dev.gw.flooring 0 = false ∧ awaiting (gateway id).dev 0 = none) ∧
    ((6 : Word) < lastSeq (gateway id).dev 0 ∧ lastSeq (gateway id).dev 0 = 7 ∧ lastSeq (gateway id).dev 0 < 8) ∧
    tget (fun _ => false) (gateway (fun g => { g with flooring := [(0, true)] })).dev.gw.flooring 0 = true ∧
    awaiting (gateway (fun g => { g with waiting := [(0, some ⟨asker, 7, [], none, false⟩)] })).dev 0 = some ⟨asker, 7, [], none, false⟩ ∧
    tget (fun _ => none) (gateway (fun g => { g with cached := [(0, some [1])] })).dev.gw.cached 0 = some [1] ∧
    (∀ o ∈ hankOps (request 8 0x40000048), judgeOp (gateway id).dev 0 o = 0) ∧
    (∃ o ∈ hankOps (request 8 0x10000000), judgeOp (gateway id).dev 0 o ≠ 0) ∧
    msgN (request 8 0x40000048) 8 8 = 8 := by decide +kernel

theorem witness_HankReplyAndKeys :
    (awaiting State.reset.dev 3 = none ∧ keyOf State.reset.dev 3 = none) ∧
    awaiting (gateway (fun g => { g with waiting := [(0, some ⟨asker, 7, [], some 9, true⟩)] })).dev 0 = some ⟨asker, 7, [], some 9, true⟩ ∧
    lastSeq (gateway id).dev 0 = 7 ∧ (∀ v ∈ [1, 2, 5], accepted State.reset .pcie 0x106C v = true) ∧
    (as .partner id).role.state = .partner ∧ State.reset.role.state ≠ .partner := by decide +kernel

/-- Bytes of erased NOR. -/
theorem erased (a n : Nat) (h1 : 0x08000000 ≤ a) (h2 : a + n ≤ 0x10000000) :
    rdBytes (testing 1 [] none).dev a n = List.replicate n 0xFF := by
  have hm : (testing 1 [] none).dev.mem = [] := by decide +kernel
  rw [rdBytes, List.eq_replicate_iff]
  refine ⟨by simp, fun b hb => ?_⟩
  obtain ⟨i, hi, rfl⟩ := List.mem_map.1 hb
  have := List.mem_range.1 hi
  rw [rdB, hm, tget, memReset, if_neg (by omega), if_pos (by simp; omega)]

/-- No slot of erased NOR has a correct CRC. -/
theorem no_record (s : Nat) (h : s < 4096) : recOk (testing 1 [] none).dev s = false := by
  have ha : recordArea = 0x0FFC0000 := by decide
  rw [recOk, rdN, recSlot, ha, erased _ _ (by omega) (by omega), erased _ _ (by omega) (by omega)]
  decide +kernel

/-- The last shut-down leaves its record in slot 0 of erased NOR. -/
theorem witness_SelfTestAndStandby_record : recLast (testing 1 [] none).dev = none := by
  have h : ∀ l : List Nat, (∀ s ∈ l, s < 4096) → l.foldl (fun b s =>
      if recOk (testing 1 [] none).dev s then
        match b with
        | none => some s
        | some t => if rdN (testing 1 [] none).dev (recSlot t + 8) 8 < rdN (testing 1 [] none).dev (recSlot s + 8) 8 then some s
            else b
      else b) none = none := by
    intro l
    induction l with
    | nil => simp
    | cons x r ih => intro hl; simp [no_record x (hl x (by simp))]; exact ih (fun s hs => hl s (by simp [hs]))
  exact h _ (fun s hs => List.mem_range.1 hs)

/-! ### The form of commands -/

/-- For each check of `Instr.wf`, a command that fails it and one that meets it. -/
theorem test_wf_samples : Instr.wf (.sampleTick 0 (List.replicate 191 0)) = false ∧
    Instr.wf (.sampleTick 0 (List.replicate 192 0)) = true := by decide +kernel
theorem test_wf_inTdm : Instr.wf (.inTdmRx 1 0 0 (List.replicate 100 0)) = false ∧
    Instr.wf (.inTdmRx 1 0 0 (List.replicate 96 0)) = true ∧ Instr.wf (.inTdmRx 1 0 0 (List.replicate 192 0)) = true := by
  decide +kernel
theorem test_wf_shadow : Instr.wf (.shadowRx 1 0 [1]) = false := by decide +kernel
theorem test_wf_sweep : Instr.wf (.sweepRx 1 0 0 (List.replicate 208 0)) = false ∧
    Instr.wf (.sweepRx 1 0 0 (List.replicate 209 0)) = true := by decide +kernel
theorem test_wf_bulk : Instr.wf (.bulkRx 1 0 (.words [])) = false ∧ Instr.wf (.bulkRx 1 0 (.words [1])) = true ∧ bulkLength 1024 = true ∧
    bulkLength 1025 = false := by decide +kernel
theorem test_wf_sequencer : Instr.wf (.seqStart 0 []) = false ∧ Instr.wf (.seqCancel 0 [1]) = false ∧
    Instr.wf (.seqCancelAll 0 [1]) = false ∧ Instr.wf (.seqReservedOpcode 0 [1]) = false ∧
    Instr.wf (.seqStart 0 startWords) = true := by decide +kernel
theorem test_wf_packet : Instr.wf (.rxPacket (packet 0 [])) = true := by decide +kernel
theorem test_wf_packet_long (p : List Byte) (h : p.length = 9001) : Instr.wf (.rxPacket (packet 0 p)) = false := by
  simp [Instr.wf, packet, h]
theorem test_wf_page : Instr.wf (.writePage 0 0 1) = false ∧ Instr.wf (.writePage 0 2 1) = true := by decide +kernel
theorem test_wf_igmp : Instr.wf (.igmpQuery 0 0) = false ∧ Instr.wf (.igmpQuery 0 3) = true := by decide +kernel
theorem test_wf_lanes : Instr.wf (.apdinLinkUp 2) = false ∧ Instr.wf (.apdinLinkUp 3) = true := by decide +kernel
theorem test_wf_write : Instr.wf (.registerWrite .pcie 0 (.word 0) 3) = false ∧ Instr.wf (.registerWrite .pcie 0 (.word 0) 8) = true := by
  decide +kernel
theorem test_wf_signatures : Instr.wf (.quickTestEnd []) = false ∧ Instr.wf (.quickTestEnd (List.replicate 42 0)) = true := by
  decide +kernel

/-! ### The step -/

/-- R27, R398: an owner's step takes the first command that waits and leaves the others. -/
theorem test_step_takes_first :
    (match step { linked .owner id with pending := [.seal, .frameTick] } with
      | .next t => t.pending == [.frameTick] && t.dev.twin.sealed.isSome
      | _ => false) = true := by decide +kernel

/-- No row of the table gives bits, so no word spells a command. -/
theorem test_no_word : decodeTableWord 16 5 = none ∧ (State.reset.withFetchWord 16 5).pending = [] := by decide +kernel

/-! ### Further states that meet the hypotheses -/

/-- Local memory of pair 0 has one upset at its first byte. -/
def upset (bad : Bool) : State := one (fun c => { c.put 0x200 6 with upsets := [(0, bad)] })

/-- Loads that correct one error, and one that meets an error beyond correction. -/
theorem witness_LsuLoads_ecc :
    (∀ u : Fin 2, ∀ o : Fin 10, issuesEcc (upset false) 0 (0x210 + 64 * u.val + o.val) 0 false 1 = true) ∧
    (opnd (upset false) 0 0x200).toNat < 0x80 ∧
    (lsuOf (.lsuLd8u 0 0 0) = some (0, 0, 0x10, 0) ∧ canIssue (upset true) 0 = true ∧
      stallsSb (met 0 (upset true).dev) (metCore 0 (upset true).dev) (oneMove 0x210 0 false) = false ∧
      lsuSpan (upset true) 0 0x10 0 = (0, 1) ∧ ((metCore 0 (upset true).dev).upsetsIn 0 1).contains true = true ∧
      (metCore 0 (upset true).dev).level ≠ 15 ∧ ((metCore 0 (upset false).dev).upsetsIn 0 1).contains true = false) := by
  decide +kernel

/-- A write-back region over SRAM, of which nothing is cached. -/
def uncached : State := one (fun c => { c with regions := [(0, 0x10000000), (1, 0x10000FFF), (2, 5)] })

theorem witness_ExtOperations_misses : (metCore 0 uncached.dev).dFind 0x10000000 = none ∧ (metCore 0 uncached.dev).attr 0x10000000 = 2 ∧
    issues uncached 0 0x413 0x10000000 false = true ∧ issues uncached 0 0x414 0x10000000 false = true := by decide +kernel

/-- A write waits before another, with a FENCE or not, after an error or not. -/
def twoWrites (uncached fence : Bool) : State :=
  one (fun c => { c with wb := [⟨0x10000040, cells 0x10000040 [1, 2, 3, 4], uncached, 0x80, false⟩, ⟨0x10000080, [], true, 0xC0, false⟩],
                         fence := fence })

theorem witness_WriteBufferAndMaintenance_writes :
    (∀ u f : Bool, awake (twoWrites u f).dev = true ∧ (Machine.core (twoWrites u f).dev 0).fence = f ∧
      (Machine.core (twoWrites u f).dev 0).wb =
        [⟨0x10000040, cells 0x10000040 [1, 2, 3, 4], u, 0x80, false⟩, ⟨0x10000080, [], true, 0xC0, false⟩] ∧
      (Machine.core (twoWrites u f).dev 0).entry = none ∧ (Machine.core (twoWrites u f).dev 0).level ≠ 15) ∧
    (awake ready.dev = true ∧ (Machine.core ready.dev 0).wb = [] ∧ (Machine.core ready.dev 0).fence = false) ∧
    MemErr.ecc ≠ .none := by decide +kernel

/-- One dirty line and a write buffer of `n` entries, with a maintenance operation over the line. -/
def maintaining (n : Nat) (w : ExtWork) : State :=
  one (fun c => { c with ext := [⟨5, 0x80, w⟩], dcache := [(0, some (line0 true))], wb := List.replicate n ⟨0, [], true, 0, false⟩ })

theorem witness_WriteBufferAndMaintenance_ranges :
    (awake ready.dev = true ∧ (Machine.core ready.dev 0).ext.any ExtOp.isRange = false) ∧
    (∀ n ∈ [0, 7, 8], ∀ k ∈ [0, 1, 2], let c := Machine.core (maintaining n (.range k 0x10000020 0x10000100 0)).dev 0
      c.ext = [⟨5, 0x80, .range k 0x10000020 0x10000100 0⟩] ∧ c.dcache = [(0, some (line0 true))] ∧ c.wb.length = n ∧
      c.ext.find? ExtOp.isRange = some ⟨5, 0x80, .range k 0x10000020 0x10000100 0⟩) ∧
    (let c := Machine.core (maintaining 7 (.irange 0 64)).dev 0
     c.ext.find? ExtOp.isRange = some ⟨5, 0x80, .irange 0 64⟩ ∧ c.wb.length + c.dcache.length ≤ 8) ∧
    (let c := Machine.core (maintaining 0 (.ifill 0x10000040 2)).dev 0
     c.ext = [⟨5, 0x80, .ifill 0x10000040 2⟩] ∧ inRam 0x10000040 = true ∧ c.entry = none ∧ c.level ≠ 15) := by
  decide +kernel

/-- A module whose EVC sleeps. -/
def sleeping (s : State) : State := { s with dev := { s.dev with evc := { s.dev.evc with asleep := true } } }

theorem witness_StillnessAndSleep_asleep : (sleeping State.reset).dev.evc.asleep = true ∧ State.reset.dev.evc.asleep = false ∧
    awake State.reset.dev = true ∧ issues (sleeping (waitingFor none)) 0 0x3E1 9 false = true ∧
    (sleeping (waitingFor none)).dev.evc.asleep = true ∧ (waitingFor none).dev.evc.asleep = false ∧
    (waitingFor (some 3)).dev.evc.asleep = false ∧ still.dev.evc.asleep = false ∧
    (stillCheck still.dev).evc.asleep = false := by decide +kernel

/-- Storage has an operation in progress: the block cannot finish its quiesce. -/
theorem witness_BlockStates_work :
    (workLeft .stor (storing ⟨5, 0, 0, 0⟩).dev = true ∧ awake (storing ⟨5, 0, 0, 0⟩).dev = true ∧ tickBlk .stor = false) ∧
    (workLeft .cont (blockWith .cont 0 0 1 0 0).dev = false ∧ flag (blockWith .cont 0 0 1 0 0).dev (hdrQuiescing .cont) = true) ∧
    (∀ pend ∈ [0, 1], flag (blockWith .cont 0 0 1 pend 0).dev (hdrPendEn .cont) = (pend == 1)) := by decide +kernel

/-- Several faults in one cycle, by their classes and groups; the third of a window. -/
theorem witness_LockstepFaults_classes :
    let kind (f : PlyFault) : FaultClass :=
      match f with
      | .checker _ => .checker
      | .delay _ => .delayPath
      | .difference g => if g.val < 34 then .divergence else .latent
      | .windowRead _ | .eccOnePly _ => .divergence
    kind (.difference 33) = .divergence ∧ kind (.difference 34) = .latent ∧
    (∀ h ∈ [PlyFault.difference 3, .checker 33], kind h = .checker → h = .checker 33) ∧
    (∀ h ∈ [PlyFault.difference 3, .delay 12], kind h ≠ .checker) ∧
    (∀ h ∈ [PlyFault.eccOnePly 8, .difference 36], kind h ≠ .checker ∧ kind h ≠ .delayPath) ∧
    paired (plyWith .alone 1 PlySt.reset).role.state (plyWith .alone 1 PlySt.reset).dev = false ∧
    (BitVec.ofNat 12 0xD0).toNat ≤ 0xD0 := by decide +kernel

theorem witness_ContactsAndRelays_edges : rd State.reset.dev relOc = 0 ∧ rd State.reset.dev relMismatch = 0 := by
  decide +kernel

/-! ### Witnesses of the clauses on loops, bundles, takeover, zones and rounding -/

/-- 1 + 2⁻²⁴ in binary32 overflows nothing; 5/2 rounds to 2 by ties to even, and to 3 upward (R154). -/
theorem witness_FpuNaNs_rounding :
    (let a : Fp := .fin false 1 0
     let b : Fp := .fin false 1 (-24)
     ratOf a + ratOf b ≠ 0 ∧ ratOf a * ratOf b ≠ 0 ∧ ratOf a * ratOf b + ratOf a ≠ 0 ∧ ratOf a ≠ 0 ∧ ratOf b ≠ 0 ∧
       ratOf a + ratOf (.fin true 1 0) = 0 ∧ ratOf a * ratOf (.fin true 0 0) = 0 ∧
       ratOf a * ratOf a + ratOf (.fin true 1 0) = 0) ∧
    (finitePat (fmtOf false) 0x40000000 = true ∧ 0 < ratOf (unpack (fmtOf false) 0x40000000) ∧
      finitePat (fmtOf true) 0x8000000000000000 = true ∧ (fmtOf true).signBit ≤ 0x8000000000000000 ∧
      ratOf (unpack (fmtOf true) 0x8000000000000000) = ratOf (unpack (fmtOf true) 0)) ∧
    ((unpack (fmtOf false) 0x7FC00001).isNan = true ∧ (unpack (fmtOf false) 0x40000000).isNan = false) := by decide +kernel
theorem witness_FpuNaNs_integers : RoundsInt 0 (5 / 2) 2 ∧ RoundsInt 1 (-5 / 2) (-2) ∧ RoundsInt 2 (5 / 2) 3 ∧
    RoundsInt 3 (-5 / 2) (-3) := by
  refine ⟨?_, ?_, ?_, ?_⟩
  · show (5 / 2 - ((2 : Int) : Rat)).abs ≤ 1 / 2 ∧ ((5 / 2 - ((2 : Int) : Rat)).abs = 1 / 2 → (2 : Int) % 2 = 0)
    decide +kernel
  · show ((-2 : Int) : Rat).abs ≤ (-5 / 2 : Rat).abs ∧ (-5 / 2 : Rat).abs < ((-2 : Int) : Rat).abs + 1 ∧ 0 ≤ ((-2 : Int) : Rat) * (-5 / 2)
    decide +kernel
  · show ((3 : Int) : Rat) - 1 < 5 / 2 ∧ (5 / 2 : Rat) ≤ ((3 : Int) : Rat)
    decide +kernel
  · show ((-3 : Int) : Rat) ≤ -5 / 2 ∧ (-5 / 2 : Rat) < ((-3 : Int) : Rat) + 1
    decide +kernel

/-- An empty bundle at address 0, where loop levels 1 and 2 end, with the LSTATE given. -/
def looping (l1 l2 : Nat) : State :=
  one (fun c => { (((c.put 0x3D0 0x800).put 0x3D8 0x400).put 0x3D4 (BitVec.ofNat 64 l1)).put 0x3DC (BitVec.ofNat 64 l2) with
    queue := [(0, bundle 0 [])] })
/-- A level with so many turns left, active, and armed at level 0 (R182). -/
def turns (n : Nat) : Nat := n + 2 ^ 32

theorem witness_LoopControls_ends :
    (∀ x ∈ [(0, 0), (0, turns 3), (0, turns 1), (turns 5, turns 1)], let s := looping x.1 x.2
      fetched s 0 (bundle 0 []) = true ∧ (metCore 0 s.dev).lend 2 = (metCore 0 s.dev).pc ∧ (metCore 0 s.dev).owned 2 = true ∧
        (metCore 0 s.dev).loopSt 2 = x.2 / 2 ^ 32 ∧ (metCore 0 s.dev).remain 2 = x.2 % 2 ^ 32 ∧
        (metCore 0 s.dev).loopSt 1 = x.1 / 2 ^ 32 ∧ (metCore 0 s.dev).remain 1 = x.1 % 2 ^ 32 ∧
        (metCore 0 s.dev).loopSt 0 = 0) ∧
    (issues ready 0 0x3C0 64 false = true ∧ ∀ k, k < 3 → tget (fun _ => none) (metCore 0 ready.dev).lstate k = none) := by
  decide +kernel

/-- R183, R185: level 2 falls through and level 1 goes back to its LSTART. -/
theorem test_loop_shared_end : after (.bundleIssue 0) (looping (turns 5) (turns 1)) (fun t =>
    let c := Machine.core t.dev 0
    c.pc == 0x800 && c.loopSt 2 == 0 && c.remain 1 == 4) = true := by decide +kernel

/-- Level 0 is to be skipped from address 0 to 0x40, and the bundle at 0x80 is in the instruction cache. -/
def skipping : State :=
  one (fun c => { (c.put 0x3C9 0x40).put 0x3CC (BitVec.ofNat 64 (2 * 2 ^ 32 + 7)) with
    icache := [((Core.reset.iFill 0x80 (bundle 0 []) 0).icache.head?.map Prod.fst).getD 0 |> fun k => (k, some (0x80, bundle 0 []))] })

theorem witness_LoopControls_skip :
    fetched skipping 0 (bundle 0 []) = true ∧ (Machine.core skipping.dev 0).loopSt 0 = 2 ∧
    (Machine.core skipping.dev 0).owned 0 = true ∧ (Machine.core skipping.dev 0).lstart 0 = (Machine.core skipping.dev 0).pc ∧
    (Machine.core skipping.dev 0).loopSt 1 = 0 ∧ (Machine.core skipping.dev 0).loopSt 2 = 0 ∧
    (Machine.core skipping.dev 0).pipe = [] ∧ (Machine.core skipping.dev 0).sync = [] := by decide +kernel

/-- R183: the bundle after LEND issues in place of the one at LSTART. -/
theorem test_loop_skip : after (.bundleIssue 0) skipping (fun t =>
    (Machine.core t.dev 0).pc == 0xC0 && (Machine.core t.dev 0).loopSt 0 == 0) = true := by decide +kernel

/-- Three moves: 5 to G7 if P2 is 0, 6 to G8 if P1 is 1, and G9 to G10. -/
def threeMoves : Nat := bundle 0 [0x2A00A00E, 0x0600C010, 9 * 2 ^ 13 + 10 * 2]
/-- 3 to OPA of ALU 0 and 4 to its ADD64, the operand first or last (R144). -/
def addThem (first : Bool) : Nat :=
  let o := 2 ^ 25 + 3 * 2 ^ 13 + 0x282 * 2
  let t := 2 ^ 25 + 4 * 2 ^ 13 + 0x289 * 2
  bundle 0 (if first then [o, t] else [t, o])

theorem witness_BundlesAndSynchronisedClass_moves :
    (fetched (queued threeMoves) 0 threeMoves = true ∧ illegal threeMoves = none ∧ bit threeMoves 29 = false ∧ fmtField threeMoves ≠ 2 ∧
      slotsOf threeMoves = [⟨0, 10, true, 5, 7, false⟩, ⟨1, 1, true, 6, 8, false⟩, ⟨2, 0, false, 9, 10, false⟩] ∧
      ∀ k ∈ [7, 8, 9, 10, 0xD1, 0xD2], (metCore 0 (queued threeMoves).dev).busy k = false) ∧
    (∀ f : Bool, fetched (queued (addThem f)) 0 (addThem f) = true ∧ illegal (addThem f) = none ∧
      slotsOf (addThem f) = (if f then [⟨0, 0, true, 3, 0x282, false⟩, ⟨1, 0, true, 4, 0x289, false⟩]
        else [⟨0, 0, true, 4, 0x289, false⟩, ⟨1, 0, true, 3, 0x282, false⟩]) ∧
      (metCore 0 (queued (addThem f)).dev).busy (opnd (queued (addThem f)) 0 0x280).toNat = false) := by decide +kernel

/-- R96, R103: P2 is 0 and P1 is 0, and G10 takes what G9 held. -/
theorem test_three_moves : after (.bundleIssue 0) (queued threeMoves) (fun t => sent t == [.port 7 5, .port 10 0]) = true := by
  decide +kernel
/-- R96: the trigger sees the operand of its bundle, whichever slot it has. -/
theorem test_operand_before_trigger : ∀ f : Bool, after (.bundleIssue 0) (queued (addThem f))
    (fun t => sent t == [.port 0x281 7]) = true := by decide +kernel

/-- Source 41 is pending at level 9 for pair 0, whose entry for source 40 at level 3 is in progress, confirmed or not. -/
def overtaking (confirmed : Bool) : State :=
  start (fun d =>
    let c := { Core.reset with entry := some ⟨40, 3, 0x1000, confirmed⟩, save := [(6, 0x480), (7, 0x105)] }
    let d1 := setCore 0 (c.put 0xE7 3) (run0 (wr (wr (wr (wr d (hdrActive .evc) 1) (evcPend 1) 0x300) (evcCfgCoreEn 41) 1) (evcCfgLevel 41) 9))
    if confirmed then setSrc evcPend 40 false (setSrc evcActive 40 true (wr (wr d1 (evcActValid 0 3) 1) (evcActSrc 0 3) 40))
    else { d1 with evc := { d1.evc with presented := [(0, some 40)] } })

theorem witness_EvcDelivery_takeover :
    (∀ b : Bool, let d := stillCheck (overtaking b).dev
      awake (overtaking b).dev = true ∧ flag d (hdrActive .evc) = true ∧ d.evc.asleep = false ∧ pendingSrcs d = [41] ∧
        rd d (evcHoldoff 1) = 0 ∧ nextCore d 41 [] = some 0 ∧ (Machine.core d 0).entry = some ⟨40, 3, 0x1000, b⟩ ∧
        (Machine.core d 0).pipe = [] ∧
        (if b then srcBit d evcActive 40 = true else tget (fun _ => none) d.evc.presented 0 = some 40 ∧
          srcBit d evcPend 40 = true ∧ srcBit d evcActive 40 = false)) ∧
    (let s : State := { presented40 with dev := wr presented40.dev (plyPstateState 0) 2 }
     awake s.dev = true ∧ tget (fun _ => none) s.dev.evc.presented 0 = some 40 ∧ canServe s.dev 0 = false) := by decide +kernel

/-- R130: slot 9 is written from slot 3, LEVEL is 9, and the earlier source is pending. -/
theorem test_takeover : ∀ b : Bool, after .evcPresent (overtaking b) (fun t =>
    (Machine.core t.dev 0).saved 18 == 0x480 && (Machine.core t.dev 0).saved 19 == 0x105 && (Machine.core t.dev 0).level == 9 &&
      srcBit t.dev evcPend 40 && !srcBit t.dev evcActive 40) = true := by decide +kernel

/-- The example after R268: music of player 10 in slot 0x17, and I3 at priority 28 in slot 2 with PREEMPT 2 ms. -/
def platform : List (Nat × Ann) :=
  [(2, ⟨2, 0x1002, 1, 28, 3, 0, 2 ^ 40, 0, 0, 2, 1, 0, 9, 0, 0, false⟩),
   (0x17, ⟨2, 0x7017, 7, 4, 138, 0, 2 ^ 40, 0, 0, 0, 1, 0, 5, 0, 0, true⟩)]
/-- The music holds the zone at full gain. -/
def music : Zone := { holder := some 0x17, g0 := 0, gt := 0x8000, f := 16, j := 16, gEnd := 0x8000 }
/-- The route words of so many frames. -/
def routeWords : Nat → Zone → List Word
  | 0, _ => []
  | n + 1, z => let r := zoneStep platform 40 z; r.2 :: routeWords n r.1

theorem witness_SequencerCommands_zones :
    (platform.map Prod.fst).Nodup ∧ (∀ e ∈ platform, e.2.st = 2 ∧ bit e.2.zones 40 = true) ∧
    (platform.map (fun e => e.2.prio)) = [28, 4] ∧ music.holder = some 0x17 ∧ music.gt = 0x8000 := by decide +kernel

/-- The table of the example after R268: frames n, n+7, n+15 and n+16. -/
theorem test_platform : let l := routeWords 17 music
    nth l 0 0 = 0x780080007017108A ∧ nth l 7 0 = 0x400048007017108A ∧ nth l 15 0 = 0x000008007017108A ∧
      nth l 16 0 = 0x800080001002F003 := by decide +kernel

/-- The sequencer runs in an ALONE module, with the zone of the example held. -/
def zoned : State :=
  as .alone (fun d => { wr d (hdrActive .seq) 1 with
    seq := { d.seq with anns := platform.map (fun e => (e.1, some e.2)), zones := [(40, music)] } })

theorem witness_SequencerCommands_tick :
    awake zoned.dev = true ∧ zoned.role.state = .alone ∧ zoned.dev.twin.dying = false ∧ zoned.dev.twin.stopping = false ∧
    zoned.dev.commit.held = [] ∧ zoned.dev.ptp.steps = [] ∧ rd zoned.dev bistPstatusPmode = 0 ∧ zoned.dev.cht.armed = none ∧
    flag zoned.dev (hdrActive .seq) = true ∧ flag zoned.dev (hdrQuiescing .seq) = false ∧ zoned.dev.seq.stopped = false ∧
    (∀ k, k < 16 → flag zoned.dev (hueCmdValid k) = false) ∧ (∀ e ∈ annList zoned.dev, e.2.st ≠ 1) := by decide +kernel

/-- A chime of source 192 whose first note lasts 1 ms at full level. -/
def chiming (ms : Nat) : State :=
  start (fun d =>
    let d1 := wr (wr (wr d (hdrActive .seq) 1) (seqNoteDurMs 3 0) ms) (seqNoteLevel 3 0) 0x8000
    { d1 with seq := { d1.seq with anns := [(2, some { ann 2 0x3002 3 with source := 192 })],
                                   chimes := [(0, { Chime.idle with slot := some 2, pattern := 3 })] } })

theorem witness_SequencerCommands_chime :
    (∀ ms ∈ [0, 1], let s := chiming ms
      awake s.dev = true ∧ flag s.dev (hdrActive .seq) = true ∧ annList s.dev = [(2, { ann 2 0x3002 3 with source := 192 })] ∧
        s.dev.clk.cycle < 108032 ∧ s.dev.seq.advanced ≠ some s.dev.clk.frame ∧ (chimeGet s.dev 0).finished = false ∧
        rd s.dev (seqNoteDurMs 3 0) = ms ∧ rd s.dev (seqNoteLevel 3 0) ≤ 0x8000) ∧
    (chimeGet (chiming 1).dev 0).slot.isSome = true := by decide +kernel


/-! ### Witnesses of the clauses on registers, changes, lockstep and the twin -/

/-- A state with one control change held, in frame 1000 of an ALONE module. -/
def holding (op : ChangeOp) (f : Dev → Dev) : State :=
  as .alone (fun d => f { d with commit := { d.commit with held := [⟨5, op, none⟩], count := 5 }, clk := ⟨1000, 0, 0⟩ })

/-- Banks of program 1 with no skein, and with skein 0 twice. -/
def bankOf (l : List Word) : List (W32 × Word) := (List.range 12).map (fun i => (1, nth l i 0))

theorem witness_ControlChanges_tick :
    (∀ op ∈ [ChangeOp.inval 3, .invalAll, .staging 0 3 [], .staging 2 3 [], .arm false false 1010 (bankOf []), .cancel false true,
        .ctxWrite 0 5 [], .dbEnq 0 1 2 (List.replicate 16 7), .dbConsume 0 1 2 3, .hueReset 3, .streamEn true 3 true,
        .streamEn false 100 false, .mtu 0 5, .chime 0x65040 5, .ptpStep 9, .nightStart, .nightAbort, .adopt [], .load 1 [], .modelCommit,
        .wearRecord 1 0 [], .passStart [1], .passAbort, .seqFloor 1], let s := holding op id
      awake s.dev = true ∧ s.role.state = .alone ∧ s.dev.twin.dying = false ∧ s.dev.commit.held = [⟨5, op, none⟩]) := by decide +kernel

/-- A bank of all skeins leaves none without a pair. -/
theorem witness_ControlChanges_orphan (d : Dev) : orphanSkein d (bankOf [0xFFFFFFFFFFFFFFFF]) = none := by
  have h : ∀ x ∈ List.range 64, (bankOf [0xFFFFFFFFFFFFFFFF]).any (fun b => bit b.2.toNat x) = true := by decide +kernel
  unfold orphanSkein
  rw [List.find?_eq_none]
  intro x hx
  have := h x hx
  simp only [this, Bool.not_true, Bool.and_false, Bool.false_eq_true, not_false_eq_true]
theorem witness_ControlChanges_bank :
    (bankOf [1]).length = 12 ∧ conflictSkein (bankOf [1, 1]) ≠ none ∧ conflictSkein (bankOf [0xFFFFFFFFFFFFFFFF]) = none ∧
      nth (bankOf [1]) 0 (0, 0) ≠ (1, 0) := by decide +kernel
/-- A switch armed for a frame that its CANCEL meets in time, or too late. -/
def armedFor (f : Word) : State := holding (.cancel false true) (fun d => { d with cht := { d.cht with armed := some (f, bankOf []) } })
theorem witness_ControlChanges_armed :
    (armedFor 1001).dev.cht.armed = some (1001, bankOf []) ∧ (armedFor 1010).dev.cht.armed = some (1010, bankOf []) ∧ State.reset.dev.cht.armed = none ∧
    pstate State.reset.dev 0 = 0 ∧ slotB State.reset.dev = false := by decide +kernel
theorem witness_ControlChanges_streams :
    (flag State.reset.dev (hueResetting 0) = false ∧ flag (wr State.reset.dev (hueResetting 0) 1) (hueResetting 0) = true) ∧
    txBad State.reset.dev 3 = true ∧ rxBad State.reset.dev 100 = true ∧ flag State.reset.dev (txEn 3) = false ∧
    flag (wr State.reset.dev (txEn 3) 1) (txEn 3) = true ∧ flag State.reset.dev (rxEn 100) = false := by decide +kernel
theorem witness_ControlChanges_others :
    rd64 State.reset.dev supNightFrameLo supNightFrameHi ≤ 1001 ∧
    1001 < rd64 (wr64 State.reset.dev supNightFrameLo supNightFrameHi 2000) supNightFrameLo supNightFrameHi ∧
    badBaseline 0 = true ∧ flag State.reset.dev (hdrActive .tag) = false ∧ flag State.reset.dev tagPassActive = false ∧
    lineBusy State.reset.dev 1 = false := by decide +kernel

/-- Writes of a register of a stream, an event register, the doorbell staging of hue 3, and a burst into SRAM. -/
theorem witness_RegisterAccesses_performed :
    (rowAt (rxRtpOffset 4).off).any (fun r => r.rw != 0) = true ∧
    (let off := (rxRtpOffset 4).off
     (match placeOf (0x40000000 + off) with
      | .page b o => o == off && accepted State.reset .bootRom off 5 && heldOnly b (off - blkBase b) &&
          !resvEnc State.reset.dev b (off - blkBase b) 5
      | _ => false) = true) ∧
    (accepted State.reset .bootRom (blkBase .evc + 0x14) 1 = true) ∧
    (accepted State.reset .bootRom (bellOff 3 1 + 8) 7 = true ∧ accepted State.reset .bootRom (bellOff 3 1 + 0x44) 7 = true) ∧
    (reaches .bootRom 0x10000000 = true ∧ placeOf 0x10000000 = .ram ∧ Machine.fenced State.reset.dev 0x10000000 128 = false ∧
      guardOf State.reset.dev 0x10000005 1 = none) := by decide +kernel

/-- A pair whose EXTR, load or external load has a destination that waits. -/
theorem witness_Scoreboard_dst :
    (∀ x ∈ [(0x130, 0x100), (0x218, 0x200), (0x254, 0x240), (0x413, 0x400)],
      portKind x.1 = .trigger ∧ unitBase x.1 = x.2 ∧ unitBase x.1 ≠ 0x3C0 ∧
        ({ Core.reset.put x.2 6 with div := some ⟨6, 7, 0, 9, []⟩ } : Core).busy 6 = true ∧
        ({ Core.reset.put x.2 6 with div := some ⟨6, 7, 0, 9, []⟩ } : Core).num x.2 = 6) ∧
    portKind 0x219 = .trigger := by decide +kernel

/-- Pair 3 with a latent difference of G5, 0 in ply A and 9 in ply B, in a module ALONE or an owner whose twin sends a word. -/
def latent (st : TwinState) (w : Word) : State :=
  let s := plyWith st 1 { PlySt.reset with latent := [(5, 0, 9)], sweepFrame := some 1000 }
  { s with dev := { setCore 3 { Core.reset with plyB := [(5, some 9)] } s.dev with
    twin := { s.dev.twin with linkUp := true, lanes := 15, sealed := some (1000, 0), sealAcked := some 1000, sweep := [(773, w)] } } }

/-- An owner whose twin's pair 3 has another ACTIVE mask. -/
def differing : State :=
  let s := plyWith .owner 1 PlySt.reset
  { s with dev := { s.dev with twin := { s.dev.twin with linkUp := true, peerMask := [(3, 1)] } } }

theorem witness_LockstepFaults_latent :
    let s := latent .owner 7
    awake s.dev = true ∧ s.role.state = .owner ∧ (ply s.dev 3).latent = [(5, 0, 9)] ∧ pstate s.dev 3 = 1 ∧ (ply s.dev 3).faults = [] ∧
      (Machine.core s.dev 3).port 5 = 0 ∧ tget (fun _ => none) (Machine.core s.dev 3).plyB 5 = some 9 ∧ s.dev.commit.held = [] ∧
      s.dev.ptp.steps = [] ∧ s.dev.twin.dying = false ∧ s.dev.twin.stopping = false ∧ s.dev.cht.armed = none ∧
      s.dev.twin.peerSwitch = none ∧ flag s.dev (hdrQuiescing (.ply 3)) = false ∧ flag s.dev (hdrHalt (.ply 3)) = false ∧
      s.dev.twin.sent = none ∧ s.dev.twin.linkUp = true ∧ s.dev.twin.sealed = some (1000, 0) ∧ s.dev.twin.sealAcked = some 1000 ∧
      masksDiffer s.dev 3 = false ∧ (ply s.dev 3).sweepFrame = some 1000 ∧ tget (fun _ => 0) s.dev.twin.sweep (256 * 3 + 5) = 7 := by
  decide +kernel
theorem witness_LockstepFaults_sides :
    tget (fun _ => 0) (latent .owner 0).dev.twin.sweep (256 * 3 + 5) = 0 ∧
    tget (fun _ => 0) (latent .owner 9).dev.twin.sweep (256 * 3 + 5) = 9 ∧
    (latent .alone 0).role.state = .alone ∧
    paired .owner differing.dev = true ∧ masksDiffer differing.dev 3 = true ∧ frozeNow differing.dev 3 = false := by decide +kernel

/-- A fault of pair 3 in the frame of a state. -/
def faulted : Dev :=
  let d := (plyWith .owner 2 { PlySt.reset with faults := [1000] }).dev
  wr64 (wr d (plyLastFaultClass 3) 2) (plyLastFaultFrameLo 3) (plyLastFaultFrameHi 3) 1000
theorem witness_LockstepFaults_now : frozeNow faulted 3 = true := by decide +kernel

/-- Pair 3 after its reset, its handler waiting: in a cold restart of a module ALONE, or resynchronised in an owner. -/
def rejoining (cold : Bool) : State :=
  let s := plyWith (if cold then .alone else .owner) (if cold then 4 else 3) { PlySt.reset with
    frozen := some 980, cold := cold, resetDone := true, reloading := cold, copied := !cold, sweepFrame := some 1000, twinDone := some 1000 }
  { s with dev := { setCore 3 { Core.reset with waiting := some 0 } s.dev with
    twin := { s.dev.twin with linkUp := true, lanes := 15, sealed := some (1000, 0), sealAcked := some 1000, sweep := [(773, 7)] } } }

theorem witness_LockstepRecovery_rejoin :
    (∀ cold : Bool, let s := rejoining cold
      awake s.dev = true ∧ s.dev.commit.held = [] ∧ s.dev.ptp.steps = [] ∧ s.dev.twin.dying = false ∧ s.dev.twin.stopping = false ∧
        (ply s.dev 3).latent = [] ∧ (ply s.dev 3).resetDone = true ∧ flag s.dev (hdrQuiescing (.ply 3)) = false ∧
        (Machine.core s.dev 3).waiting.isSome = true ∧ s.role.state = (if cold then .alone else .owner) ∧
        s.dev.twin.sent = none ∧ pstate s.dev 3 = (if cold then 4 else 3) ∧ (ply s.dev 3).reloading = cold ∧
        flag s.dev (plyReloadValid 3) = false ∧ s.dev.twin.linkUp = true ∧ s.dev.twin.sealed = some (1000, 0) ∧
        s.dev.twin.sealAcked = some 1000 ∧ s.dev.cht.armed = none ∧ s.dev.twin.peerSwitch = none ∧ masksDiffer s.dev 3 = false ∧
        (ply s.dev 3).copied = !cold ∧ (ply s.dev 3).sweepFrame = some 1000 ∧ (ply s.dev 3).twinDone = some 1000) ∧
    (let s := plyWith .alone 4 { PlySt.reset with injecting := true }
     ∀ v : Bool, let d := wr (wr s.dev (plyReloadValid 3) (b2n v)) (chChCtrlEn 0) 1
      flag d (plyReloadValid 3) = v ∧ rd d (plyReloadCh 3) = 0 ∧ flag d (chChCtrlEn 0) = true ∧
        flag d (chChStatusActive 0) = false ∧ flag d (chChStatusLatched 0) = false) := by decide +kernel

theorem witness_TwinMessageOrder_ahead :
    fresh (linked .partner id).dev 3 = true ∧ (linked .partner id).dev.twin.rxAhead = [] ∧
    (3 : W32) ≠ (linked .partner id).dev.twin.rxLseq + 1 ∧ (1 : W32) = (linked .partner id).dev.twin.rxLseq + 1 := by decide +kernel

/-- The partner holds the seal of frame 100 up to change 2, and change 1 of it. -/
def sealing : State :=
  let s := linked .partner (fun t => { t with sealHeld := some (100, 2) })
  { s with dev := { s.dev with commit := { s.dev.commit with held := [⟨1, .nightAbort, none⟩], count := 1 } } }

theorem witness_TwinInputsAndChanges_seal :
    fresh sealing.dev 1 = true ∧ sealing.role.state = .partner ∧ sealing.dev.twin.sealHeld = some (100, 2) ∧
    (∀ h ∈ sealing.dev.commit.held, h.num ≠ 2) ∧ sealComplete sealing.dev 2 = false ∧
    sealComplete { sealing.dev with commit := { sealing.dev.commit with held := sealing.dev.commit.held ++ [⟨2, .wake, none⟩] } } 2 = true := by
  decide +kernel

/-- A module that became ALONE in frame 100, with its own digest and a hash of that frame. -/
def tookOver : State :=
  let s := linked .alone (fun t => { t with silentAt := some 0, ownDigest := some (0, 5), ownHash := [(hashKey true 3, some 5)] })
  { s with dev := { s.dev with clk := ⟨0, 110000, 0⟩ } }

/-- An owner that refuses output 0. -/
def refusing : State := linked .owner (fun t => { t with refused := [⟨0, 0, []⟩] })

theorem witness_TwinAgreement_took :
    fresh tookOver.dev 1 = true ∧ tookOver.role.state = .alone ∧ tookOver.dev.twin.silentAt = some tookOver.dev.clk.frame ∧
    tookOver.dev.twin.divergedAt ≠ some tookOver.dev.clk.frame ∧ tookOver.dev.twin.ownDigest = some (0, 5) ∧
    tget (fun _ => none) tookOver.dev.twin.ownHash (hashKey true 3) = some 5 ∧
    fresh refusing.dev 1 = true ∧ refusing.dev.twin.refused = [⟨0, 0, []⟩] ∧ muted refusing.dev 3 = false ∧
    (∀ c ∈ refusing.dev.commit.held, c.op ≠ .rejoinCold 3) ∧ muted (wr refusing.dev (plyPstateState 3) 5) 3 = true := by decide +kernel

/-! ### Witnesses of the clauses on power, contacts and the frame's tick -/

/-- CRC-32C of the bytes "12345678" is 0x6087809A. -/
theorem witness_TwinPairing_words : linkOk ⟨[0x3837363534333231], 0x6087809A⟩ = true ∧ linkOk ⟨[], 1⟩ = false ∧
    (linked .startUp id).dev.bist.bootFailed = false ∧
    (start (fun d => { d with bist := { d.bist with bootFailed := true } })).dev.bist.bootFailed = true := by decide +kernel

/-- The line shows another ownership than the peer says, for the second time, with the link up. -/
theorem witness_TwinTimeouts_line :
    let s := linked .owner (fun t => { t with ownMiss := 1, peer := .partner, beats := [0], peerLine := true, peerOwnLow := true })
    let x : PeerLines := ⟨true, false⟩
    awake s.dev = true ∧ s.dev.twin.linkUp = true ∧ (x.beat == s.dev.twin.peerLine) = true ∧
      s.dev.twin.ownMiss = 1 ∧ s.dev.twin.peerOwnLow = true ∧ ownsTdm s.dev.twin.peer = false := by decide +kernel

/-- Both supply inputs, one, and none. -/
theorem witness_SupplyAndReset_inputs : ∀ x ∈ [0, 1], ∀ y ∈ [0, 1], ∀ m ∈ [0, 6],
    let d := (start (fun d => wr (wr (wr d bistPstatusPwrAOk x) bistPstatusPwrBOk y) bistPstatusPmode m)).dev
    flag d bistPstatusPwrAOk = (x == 1) ∧ flag d bistPstatusPwrBOk = (y == 1) ∧ pmode d = m := by decide +kernel

/-- A gated block still quiesces; pair 2 is in service when the module wakes. -/
theorem witness_SelfTestAndStandby_gated :
    (∃ b ∈ gatedBlks, flag (wr (testing 3 [] none).dev (hdrQuiescing b) 1) (hdrQuiescing b) = true) ∧
    (let d := wr (testing 5 [] none).dev (hdrEn (.ply 2)) 1
     (∀ e ∈ d.bist.saved.getD [], gatedReg e.1 = true) ∧ (∀ x ∈ d.bist.savedChans, x.1 < 128) ∧ d.bist.bootFailed = false ∧
       flag d (hdrEn (.ply 2)) = true ∧ pstate d 2 ≠ 5) := by
  refine ⟨⟨.seq, by decide +kernel, by decide +kernel⟩, by decide +kernel⟩

theorem witness_ContactsAndRelays_thresholds :
    ∀ f ∈ [contThreshShort, contThreshActive, contThreshOpen], accepted State.reset .bootRom f.off 50 = true ∧
      (BitVec.ofNat 40 (0x40000000 + f.off)).toNat = 0x40000000 + f.off := by decide +kernel

/-- The contact block finishes its quiesce, port 1 still receiving or done. -/
theorem witness_ContactsAndRelays_finishing : ∀ l ∈ [[], [1]],
    let s := contacts Serial.reset Contact.reset 3
    let d := { wr (wr s.dev (hdrActive .cont) 0) (hdrQuiescing .cont) 1 with cont := { s.dev.cont with finished := l } }
    contRunning d = false ∧ flag d (hdrQuiescing .cont) = true ∧ d.cont.finished = l ∧ flag d (contPortEn 1) = true := by
  decide +kernel

/-- The changes of power and of the twin, held alone in a module that is ALONE. -/
theorem witness_FrameTick_alone :
    (∀ op ∈ [ChangeOp.pairReset 3, .rejoinCold 3, .shutdown, .standby, .wake, .twinQuiet false true, .joinFrame],
      let s := holding op id
      awake s.dev = true ∧ s.role.state = .alone ∧ s.dev.twin.dying = false ∧ s.dev.bist.bootFailed = false ∧
        s.dev.commit.held = [⟨5, op, none⟩] ∧ pmode s.dev = 0 ∧ slotB s.dev = false ∧ pstate s.dev 3 = 0) ∧
    pstate (wr (holding (.pairReset 3) id).dev (plyPstateState 3) 5) 3 = 5 ∧
    (∀ m ∈ [0, 3, 4], pmode (wr (holding .wake id).dev bistPstatusPmode m) = m) := by decide +kernel

/-- An announcement of priority 28, as the commit point of a SHUTDOWN or a STANDBY meets it, and none. -/
theorem witness_FrameTick_emergency : ∀ b : Bool, ∀ op ∈ [ChangeOp.shutdown, .standby],
    let s := holding op (fun d => { d with seq := { d.seq with anns := if b then [(2, some { ann 2 0x1002 1 with prio := 28 })] else [] } })
    emergencyHeld (tickBegin (s.role, s.dev)).2 = b := by decide +kernel

/-- A change under its seal, in an owner whose peer acknowledged it and in a partner that holds all of it. -/
def sealedBy (st : TwinState) (op : ChangeOp) : State :=
  let s := linked st (fun t => { t with sealed := some (100, 5), sealAcked := some 100, sealHeld := some (100, 5) })
  { s with dev := { s.dev with commit := { s.dev.commit with held := [⟨5, op, none⟩], count := 5, applied := 4 }, clk := ⟨100, 0, 0⟩ } }

theorem witness_FrameTick_sealed : ∀ st ∈ [TwinState.owner, .partner], ∀ slot : Bool,
    let s := sealedBy st (.twinQuiet slot true)
    awake s.dev = true ∧ s.role.state = st ∧ s.dev.twin.dying = false ∧ s.dev.bist.bootFailed = false ∧
      s.dev.commit.held = [⟨5, .twinQuiet slot true, none⟩] ∧ s.dev.twin.sealed = some (s.dev.clk.frame, 5) ∧
      s.dev.twin.sealAcked = some s.dev.clk.frame ∧ s.dev.twin.sealHeld = some (s.dev.clk.frame, 5) ∧ sealComplete s.dev 5 = true ∧
      slotB s.dev = false := by decide +kernel

/-- A QUIET module that holds a RELEASE_HOLD or a JOIN, with the link up or down and hold set or not; a joiner at its join frame. -/
theorem witness_FrameTick_joining :
    (∀ op ∈ [ChangeOp.twinRelease false, .twinJoin false], ∀ up hold : Bool,
      let s := linked .quiet (fun t => { t with linkUp := up })
      let w : State := { s with role := { s.role with hold := hold }, dev := { s.dev with commit := { s.dev.commit with held := [⟨5, op, none⟩] } } }
      awake w.dev = true ∧ w.role.state = .quiet ∧ w.role.hold = hold ∧ w.dev.twin.linkUp = up ∧ w.dev.twin.dying = false ∧
        slotB w.dev = false ∧ w.dev.commit.held = [⟨5, op, none⟩] ∧ w.dev.bist.bootFailed = false) ∧
    (let s := linked .joining id
     s.role.state = .joining ∧ s.dev.twin.joinBad = false ∧ s.dev.twin.dying = false ∧ s.dev.bist.bootFailed = false) := by decide +kernel

/-- A switch armed for the frame that ends, its old pair 2 in time or overrun; a time step of 3 frames. -/
def switching (late : List Nat) : State :=
  as .alone (fun d => { wr d (plyPstateState 2) 1 with clk := ⟨100, 0, 0⟩, cht := { d.cht with
    armed := some (100, nextBank d), computing := some 99, overran := late, moves := [⟨7, 0, 2, 3, false, true, 0⟩] } })

theorem witness_FrameTick_switch : ∀ late ∈ [[], [2]], let s := switching late
    awake s.dev = true ∧ s.role.state = .alone ∧ s.dev.twin.dying = false ∧ s.dev.twin.stopping = false ∧ s.dev.twin.sent = none ∧
      s.dev.commit.held = [] ∧ s.dev.ptp.steps = [] ∧ flag s.dev (hdrQuiescing .cht) = false ∧ s.dev.cht.overran = late ∧
      s.dev.cht.armed = some (s.dev.clk.frame, nextBank State.reset.dev) ∧ (nextBank State.reset.dev).length = 12 ∧
      s.dev.cht.computing = some 99 ∧ s.dev.cht.moves.map (fun m => m.from_) = [2] ∧ muted s.dev 2 = false := by decide +kernel

theorem witness_FrameTick_step : (as .alone (fun d => { d with ptp := { d.ptp with steps := [-375000] } })).dev.ptp.steps = [-375000] := by
  decide +kernel

end Sys2Proof.Tests
end

/-! SUPPORT. What the units of the arithmetic chapter put on their way, in the words the obligations use: signed halves,
narrowed results, and the pipe of a pair after the issue of one operation. -/

namespace Sys2Proof.Machine

open Sys2Proof.Safety

/-! ### Numbers -/

/-- The low half of a word, signed, is what the units read (R136). -/
theorem s32_eq_lo (w : Word) : s32 w = lo w := by
  simp only [s32, toSigned, lo, BitVec.toInt_eq_toNat_cond, BitVec.toNat_setWidth]
  split <;> split <;> omega

/-- A 32-bit result of a unit is the exact value narrowed (R136, R145). -/
theorem out32_eq_narrow32 (sat : Bool) (x : Int) : out32 sat x = narrow32 sat x := by
  have h : ∀ y : Int, sext32 (ofSigned 32 y) = (BitVec.ofInt 32 y).signExtend 64 := fun y => by
    simp only [sext32, ofSigned]
    congr 1
    exact BitVec.eq_of_toNat_eq (by simp [BitVec.toNat_ofInt]; omega)
  rw [out32, h]
  rfl

/-- A 64-bit result of a unit is the exact value narrowed (R145). -/
theorem out64_eq_narrow64 (sat : Bool) (x : Int) : out64 sat x = narrow64 sat x := rfl

/-- A value of 32 signed bits is narrowed to itself. -/
theorem narrow32_of_fits {x : Int} (h : -2 ^ 31 ≤ x) (h' : x < 2 ^ 31) : narrow32 false x = BitVec.ofInt 64 x := by
  rw [narrow32, BitVec.signExtend, if_neg (by decide), BitVec.toInt_ofInt_eq_self (by decide) (by simpa using h) (by simpa using h')]

/-- The low half of a word is a value of 32 signed bits. -/
theorem lo_bounds (w : Word) : -2 ^ 31 ≤ lo w ∧ lo w < 2 ^ 31 :=
  ⟨BitVec.le_toInt (w.setWidth 32), BitVec.toInt_lt (x := w.setWidth 32)⟩

theorem b2n_bit_zero (n : Nat) : b2n (bit n 0) = n % 2 := by
  rcases Nat.mod_two_eq_zero_or_one n with h | h <;> simp [b2n, bit, h]

theorem ofNat_b2n (b : Bool) : BitVec.ofNat 64 (b2n b) = ofBool b := by cases b <;> rfl

/-! ### Leading zeros -/

theorem lt_two_pow_bitLen (n : Nat) : n < 2 ^ bitLen n := by
  unfold bitLen
  split
  · simp_all
  · exact Nat.lt_log2_self

theorem two_pow_bitLen_le {n : Nat} (h : n ≠ 0) : 2 ^ (bitLen n - 1) ≤ n := by
  simpa [bitLen, h] using Nat.log2_self_le h

theorem bitLen_le {w n : Nat} (h : n < 2 ^ w) : bitLen n ≤ w := by
  unfold bitLen
  split
  · omega
  · exact (Nat.log2_lt ‹_›).mpr h

/-- `clz` counts leading zeros (R144). -/
theorem leadingZeros_clz (w n : Nat) : LeadingZeros w (clz w n) (n % 2 ^ w) := by
  have hle : bitLen (n % 2 ^ w) ≤ w := bitLen_le (Nat.mod_lt _ (Nat.two_pow_pos w))
  have hsub : w - clz w n = bitLen (n % 2 ^ w) := by unfold clz; omega
  refine ⟨Nat.sub_le .., hsub ▸ lt_two_pow_bitLen _, fun hlt => hsub ▸ two_pow_bitLen_le ?_⟩
  intro h0
  simp [clz, h0, bitLen] at hlt

/-- A number with a clear top bit has a leading zero. -/
theorem clz_pos {w n : Nat} (h : n < 2 ^ w) : 0 < clz (w + 1) n := by
  have := bitLen_le h
  rw [clz, Nat.mod_eq_of_lt (h.trans (Nat.pow_lt_pow_right (by omega) (by omega)))]
  omega

/-! ### The issue of an operation, in the words of the obligations -/

/-- A result on its way, then one effect more. -/
theorem pipe_send (k : Nat) (e : Eff) (c : Core) : (c.send k e).pipe = c.pipe ++ [⟨c.issued, c.issued + k, e⟩] := rfl

/-- All that a result puts on its way: RES, and the register DST names if it names one (R100). -/
theorem pipe_result_eq (c : Core) (base k : Nat) (v : Word) :
    (c.result base k v).pipe = c.pipe ++ ([Eff.port (base + 1) v] ++
      (if dstReg (c.num base) then [Eff.port (c.num base) v] else [])).map (fun e => ⟨c.issued, c.issued + k, e⟩) := by
  simp only [Core.result]
  split <;> simp [Core.send, Core.issued, Core.num, Core.port]

/-- A command that issues an operation of a unit that changes its pair alone ends with the pair's pipe as the unit
leaves it. -/
theorem ends_of_pipe {i : Instr} {s : State} {p : Pair} {port base k : Nat} {v w : Word} {sat : Bool} {more : List Eff}
    {f : Core → Core} (h : issues s p port v sat = true) (hi : exec i s = opCmd p port v sat s)
    (ht : portKind port = .trigger) (hc : cuControl port = false) (hu : ∀ d, trigUnit p port v sat d = onCore p f d)
    (hw : ∀ c, (f c).waiting = c.waiting)
    (hp : let c := metCore p s.dev
      (f c).pipe = (c.result base k w).pipe ++ more.map (fun e => ⟨c.issued, c.issued + k, e⟩)) :
    Ends i s (fun t => ResultTo s t p base k w more) := by
  obtain ⟨t, b, he, ⟨hpipe, -⟩, -⟩ := opCmd_ends h ht hc hu hw
  refine ⟨t, hi.trans he, ?_⟩
  simp only [ResultTo, hpipe, hp, pipe_result_eq, opnd, Core.num, List.map_append, List.append_assoc]
  rfl

/-! ### The ALUs -/

theorem aluPort_trigger : ∀ (u : Fin 4) (o : Nat), 8 ≤ o → o < 32 →
    portKind (0x280 + o + 32 * u.val) = .trigger ∧ cuControl (0x280 + o + 32 * u.val) = false := by
  have h : ∀ (u : Fin 4) (o : Fin 32), 8 ≤ o.val →
    portKind (0x280 + o + 32 * u.val) = .trigger ∧ cuControl (0x280 + o + 32 * u.val) = false := by decide
  exact fun u o h8 h32 => h u ⟨o, h32⟩ h8

theorem trigUnit_alu (p : Nat) (u : Fin 4) {o : Nat} (ho : o < 32) (v : Word) (sat : Bool) (d : Dev) :
    trigUnit p (0x280 + o + 32 * u.val) v sat d = onCore p (aluTrig u o v sat) d := by
  have hu := u.isLt
  have hdiv : (0x280 + o + 32 * u.val - 0x280) / 32 = u.val := by omega
  have hmod : (0x280 + o + 32 * u.val - 0x280) % 32 = o := by omega
  rw [trigUnit, if_neg (by omega), if_neg (by omega), if_pos (by omega), hdiv, hmod]

theorem waiting_aluTrig (u o : Nat) (v : Word) (sat : Bool) (c : Core) : (aluTrig u o v sat c).waiting = c.waiting := by
  simp only [aluTrig]
  split <;> simp [Core.send, waiting_result]

/-- The operation of an ALU at offset `o`: its result is one bundle away, and so is the new P0 where it writes one
(R144, R146). -/
theorem alu_ends {i : Instr} {s : State} {p : Pair} {u : Fin 4} {b : Word} {sat : Bool} {o : Nat} (h8 : 8 ≤ o) (h32 : o < 32)
    (h : issues s p (0x280 + o + 32 * u.val) b sat = true) (hi : exec i s = opCmd p (aluPort u o) b sat s) :
    let r := aluOp o (opnd s p (0x282 + 32 * u.val)) b (bit (opnd s p 0xD0).toNat 0) sat
    Ends i s (fun t => ResultTo s t p (0x280 + 32 * u.val) 1 r.1 (r.2.toList.map (fun x => .port 0xD0 (ofBool x)))) := by
  obtain ⟨ht, hc⟩ := aluPort_trigger u o h8 h32
  have hport : aluPort u o = 0x280 + o + 32 * u.val := by unfold aluPort; omega
  have hopa : 0x280 + 32 * u.val + 2 = 0x282 + 32 * u.val := by omega
  refine ends_of_pipe h (hport ▸ hi) ht hc (trigUnit_alu p u h32 b sat) (waiting_aluTrig _ _ _ _) ?_
  simp only [aluTrig, opnd, Core.num, hopa]
  split <;> simp_all [pipe_send, issued_result, ofNat_b2n]

/-- An operation of an ALU that leaves P0. -/
theorem alu_ends_plain {i : Instr} {s : State} {p : Pair} {u : Fin 4} {b v : Word} {sat : Bool} (o : Nat)
    (h : issues s p (0x280 + o + 32 * u.val) b sat = true) (hi : exec i s = opCmd p (aluPort u o) b sat s)
    (hv : ∀ p0, aluOp o (opnd s p (0x282 + 32 * u.val)) b p0 sat = (v, none)) (h8 : 8 ≤ o := by decide)
    (h32 : o < 32 := by decide) : Ends i s (fun t => ResultTo s t p (0x280 + 32 * u.val) 1 v) := by
  simpa [hv] using alu_ends h8 h32 h hi

/-- An operation of an ALU that writes P0 (R146). -/
theorem alu_ends_carry {i : Instr} {s : State} {p : Pair} {u : Fin 4} {b v : Word} {sat x : Bool} (o : Nat)
    (h : issues s p (0x280 + o + 32 * u.val) b sat = true) (hi : exec i s = opCmd p (aluPort u o) b sat s)
    (hv : aluOp o (opnd s p (0x282 + 32 * u.val)) b (bit (opnd s p 0xD0).toNat 0) sat = (v, some x)) (h8 : 8 ≤ o := by decide)
    (h32 : o < 32 := by decide) : Ends i s (fun t => ResultTo s t p (0x280 + 32 * u.val) 1 v [.port 0xD0 (ofBool x)]) := by
  simpa [hv] using alu_ends h8 h32 h hi

/-! ### What the operations of an ALU compute -/

/-- The sum of two words and a carry. -/
theorem out64_add_carry (a b : Word) (c : Nat) : out64 false (s64 a + s64 b + c) = a + b + BitVec.ofNat 64 c := by
  simp [out64, s64, BitVec.ofInt_add]

/-- The difference of two words and a borrow. -/
theorem out64_sub_borrow (a b : Word) (c : Nat) : out64 false (s64 a - s64 b - c) = a - b - BitVec.ofNat 64 c := by
  simp [out64, s64, sub_eq_add_neg, BitVec.ofInt_add, BitVec.ofInt_neg]

theorem ushiftRight_eq_ofNat (a : Word) (n : Nat) : a >>> n = BitVec.ofNat 64 (a.toNat / 2 ^ n) := by
  rw [← Nat.shiftRight_eq_div_pow, ← BitVec.toNat_ushiftRight, BitVec.ofNat_toNat, BitVec.setWidth_eq]

theorem sshiftRight_eq_ofInt (a : Word) (n : Nat) : a.sshiftRight n = BitVec.ofInt 64 (a.toInt / 2 ^ n) := by
  rw [BitVec.sshiftRight, Int.shiftRight_eq_div_pow, Nat.cast_pow, Nat.cast_ofNat]

/-- A shifted half fits 32 bits (SAR32). -/
theorem out32_shift (a : Word) (n : Nat) : out32 false (s32 a / (2 ^ n : Nat)) = BitVec.ofInt 64 (lo a / 2 ^ n) := by
  obtain ⟨h, h'⟩ := lo_bounds a
  have hp : (0 : Int) < 2 ^ n := by positivity
  rw [out32_eq_narrow32, s32_eq_lo, Nat.cast_pow, Nat.cast_ofNat, narrow32_of_fits]
  · rw [Int.le_ediv_iff_mul_le hp]; nlinarith
  · rw [Int.ediv_lt_iff_lt_mul hp]; nlinarith

/-- CLS32 counts the leading bits that equal bit 31, less one: what they leave, flipped where bit 31 is 1, has one leading
zero more (R144). -/
theorem leadingZeros_cls32 (b : Word) :
    LeadingZeros 32 (cls32 b.toNat + 1) (if b.getLsbD 31 then 2 ^ 32 - 1 - b.toNat % 2 ^ 32 else b.toNat % 2 ^ 32) := by
  have hbit : bit (b.toNat % 2 ^ 32) 31 = b.getLsbD 31 := by
    simp only [bit, BitVec.getLsbD, Nat.testBit_eq_decide_div_mod_eq, beq_eq_decide, decide_eq_decide]
    omega
  have hlt : (if b.getLsbD 31 then 2 ^ 32 - 1 - b.toNat % 2 ^ 32 else b.toNat % 2 ^ 32) < 2 ^ 31 := by
    rw [← hbit]
    simp only [bit, beq_iff_eq]
    split <;> omega
  simp only [cls32, hbit]
  generalize (if b.getLsbD 31 then 2 ^ 32 - 1 - b.toNat % 2 ^ 32 else b.toNat % 2 ^ 32) = m at hlt ⊢
  have h := leadingZeros_clz 32 m
  rwa [Nat.mod_eq_of_lt (by omega), ← Nat.sub_add_cancel (clz_pos hlt)] at h

/-- The choices of MIN and MAX: which operand stands where the two are equal makes no difference. -/
theorem ite_le_eq_ite_slt {a b x y : Word} (hxy : a = b → x = y) :
    (if s64 a ≤ s64 b then x else y) = if a.slt b then x else y := by
  simp only [s64, BitVec.slt, decide_eq_true_eq]
  rcases lt_trichotomy a.toInt b.toInt with h | h | h
  · simp [h, h.le]
  · simp [hxy (BitVec.eq_of_toInt_eq h)]
  · simp [h.not_ge, h.not_gt]

/-- A command that ends with a property ends with what follows from it. -/
theorem ends_mono {i : Instr} {s : State} {q r : State → Prop} (hr : ∀ t, q t → r t) (h : Ends i s q) : Ends i s r := by
  obtain ⟨t, ht, hq⟩ := h
  exact ⟨t, ht, hr t hq⟩

theorem aluReserved (u : Fin 4) : portReset (0x280 + 32 * u.val) = 0xFFF ∧ portReset (0x282 + 32 * u.val) = 0 ∧
    ∀ o, 3 ≤ o → o ≤ 7 → portKind (0x280 + 32 * u.val + o) = .none := by
  have h : ∀ u : Fin 4, portReset (0x280 + 32 * u.val) = 0xFFF ∧ portReset (0x282 + 32 * u.val) = 0 ∧
      ∀ o : Fin 8, 3 ≤ o.val → portKind (0x280 + 32 * u.val + o) = .none := by decide
  obtain ⟨hd, ha, hr⟩ := h u
  exact ⟨hd, ha, fun o h3 h7 => hr ⟨o, by omega⟩ h3⟩

/-- Settles O1, each operation by `alu_ends_plain` or `alu_ends_carry` and what it computes. -/
theorem aluOperations : Obligations.AluOperations := by
  unfold Obligations.AluOperations
  refine ⟨?_, ?_, ?_, ?_, aluReserved⟩
  · intro s p u b sat a res
    refine ⟨fun h => alu_ends_plain 0x08 h rfl fun _ => ?_, fun h => alu_ends_plain 0x09 h rfl fun _ => ?_,
      fun h => alu_ends_plain 0x0A h rfl fun _ => ?_, fun h => alu_ends_plain 0x0B h rfl fun _ => ?_,
      fun h => alu_ends_plain 0x14 h rfl fun _ => ?_⟩
    all_goals simp [aluOp, out32_eq_narrow32, out64_eq_narrow64, s32_eq_lo, s64, a]
  · intro s p u b a c res
    refine ⟨fun h => alu_ends_carry 0x0C h rfl ?_, fun h => alu_ends_carry 0x0D h rfl ?_,
      fun h => alu_ends_carry 0x0E h rfl ?_, fun h => alu_ends_carry 0x0F h rfl ?_⟩
    all_goals simp only [aluOp, b2n_bit_zero, out32_eq_narrow32, s32_eq_lo, u32, out64_add_carry, out64_sub_borrow, a, c]
  · intro s p u b a res
    refine ⟨fun h => alu_ends_plain 0x10 h rfl fun _ => rfl, fun h => alu_ends_plain 0x11 h rfl fun _ => rfl,
      fun h => alu_ends_plain 0x12 h rfl fun _ => rfl, fun h => alu_ends_plain 0x13 h rfl fun _ => rfl,
      fun h => alu_ends_plain 0x15 h rfl fun _ => ?_, fun h => alu_ends_plain 0x16 h rfl fun _ => ?_,
      fun h => alu_ends_plain 0x17 h rfl fun _ => ?_⟩
    all_goals simp only [aluOp, ushiftRight_eq_ofNat, sshiftRight_eq_ofInt, out32_shift, a]
  · intro s p u b a res flip
    refine ⟨fun h => ends_mono (fun t ht => ⟨_, leadingZeros_clz 32 b.toNat, ht⟩) (alu_ends_plain 0x18 h rfl fun _ => rfl),
      fun h => ends_mono (fun t ht => ⟨_, ?_, ht⟩) (alu_ends_plain 0x19 h rfl fun _ => rfl),
      fun h => ends_mono (fun t ht => ⟨_, leadingZeros_cls32 b, ht⟩) (alu_ends_plain 0x1A h rfl fun _ => rfl),
      fun h => alu_ends_plain 0x1B h rfl fun _ => Prod.ext (ofNat_b2n _) rfl,
      fun h => alu_ends_plain 0x1C h rfl fun _ => Prod.ext (ofNat_b2n _) rfl,
      fun h => alu_ends_plain 0x1D h rfl fun _ => Prod.ext (ofNat_b2n _) rfl,
      fun h => alu_ends_plain 0x1E h rfl fun _ => Prod.ext (ite_le_eq_ite_slt id) rfl,
      fun h => alu_ends_plain 0x1F h rfl fun _ => Prod.ext (ite_le_eq_ite_slt Eq.symm) rfl⟩
    simpa only [Nat.mod_eq_of_lt b.isLt] using leadingZeros_clz 64 b.toNat

/-! ### The multiplier -/

theorem waiting_mulTrig (o : Nat) (v : Word) (sat : Bool) (c : Core) : (mulTrig o v sat c).waiting = c.waiting :=
  waiting_result ..

theorem mulPort_trigger : ∀ o : Nat, 8 ≤ o → o ≤ 0xC → portKind (0x300 + o) = .trigger ∧ cuControl (0x300 + o) = false := by
  have h : ∀ o : Fin 13, 8 ≤ o.val → portKind (0x300 + o) = .trigger ∧ cuControl (0x300 + o) = false := by decide
  exact fun o h8 hC => h ⟨o, by omega⟩ h8

/-- The operation of the multiplier at offset `o`: its result is one bundle away (R147). -/
theorem mul_ends {i : Instr} {s : State} {p : Pair} {b v : Word} {sat : Bool} (o : Nat) (h : issues s p (0x300 + o) b sat = true)
    (hi : exec i s = opCmd p (0x300 + o) b sat s) (hv : mulOp o (opnd s p 0x302) b sat = v) (h8 : 8 ≤ o := by decide)
    (hC : o ≤ 0xC := by decide) : Ends i s (fun t => ResultTo s t p 0x300 1 v) := by
  obtain ⟨ht, hc⟩ := mulPort_trigger o h8 hC
  have hu : ∀ d, trigUnit p (0x300 + o) b sat d = onCore p (mulTrig o b sat) d := fun d => by
    rw [trigUnit, if_neg (by omega), if_neg (by omega), if_neg (by omega), if_pos (by omega), Nat.add_sub_cancel_left]
  refine ends_of_pipe h hi ht hc hu (waiting_mulTrig _ _ _) ?_
  simp [mulTrig, ← hv, opnd]

theorem mulReserved (o : Nat) (h : (3 ≤ o ∧ o ≤ 7) ∨ (0xD ≤ o ∧ o < 0x40)) : portKind (0x300 + o) = .none := by
  have hr : ∀ o : Fin 0x40, (3 ≤ o.val ∧ o.val ≤ 7) ∨ 0xD ≤ o.val → portKind (0x300 + o) = .none := by decide
  exact hr ⟨o, by omega⟩ (by simp; omega)

/-- Settles O2, each operation by `mul_ends` and what it computes. -/
theorem multiplier : Obligations.Multiplier := by
  unfold Obligations.Multiplier
  refine ⟨?_, rfl, rfl, mulReserved⟩
  intro s p b sat a res
  refine ⟨fun h => mul_ends 0x08 h rfl ?_, fun h => mul_ends 0x09 h rfl rfl, fun h => mul_ends 0x0A h rfl ?_,
    fun h => mul_ends 0x0B h rfl ?_, fun h => mul_ends 0x0C h rfl ?_⟩
  all_goals simp only [mulOp, u32, s32_eq_lo, out32_eq_narrow32, a]

/-! ### FSTAT at the landing of FDIV and FSQRT

O3 fails at its last clause. It speaks of every state, and so of an operation whose `older`, the effects found on their
way to its destination when it was triggered, holds a move to FSTAT: `Core.outrun` drops that move before the flags look
for it. The triggers of DIV and of the FPU record `Core.bound` there, which holds none (`isFstat_bound`), and for such
operations what the clause says of FSTAT is true (`fpuIterLand_fstat`). -/

/-- An FPU operation about to land with NX, whose `older` names a move to FSTAT. -/
def outrunningFstat : IterOp := ⟨0xFFF, 0, 1, 0, [⟨0, 0, .fstat 0⟩]⟩

/-- The module after reset, that operation in progress in pair 0 and the move to FSTAT on its way. -/
def fstatOutrun : State :=
  { State.reset with
    dev := setCore 0 { Core.reset with fpi := some outrunningFstat, pipe := outrunningFstat.older } State.reset.dev }

/-- Refutes O3: where the operation's `older` holds the very move to FSTAT that meets its flags, the move is dropped and
the flags reach FSTAT at once, so FSTAT reads 1 and not the 0 it read before. -/
theorem not_dividerAndRoot : ¬ Obligations.DividerAndRoot := by
  unfold Obligations.DividerAndRoot
  rintro ⟨-, -, h⟩
  have hon : awake fstatOutrun.dev = true := by decide +kernel
  obtain ⟨t, ht, -, -, -, -, hmoved⟩ := (h fstatOutrun 0 outrunningFstat hon).2 (by decide +kernel)
  obtain ⟨hfstat, -⟩ := hmoved (by decide +kernel)
  obtain ⟨-, -, hdev⟩ := onDev_cases ht
  rw [hdev, if_pos hon] at hfstat
  exact absurd hfstat (by decide +kernel)

/-- What an iterative operation outruns are results on their way to a port. -/
theorem isFstat_bound (c : Core) (id : Nat) : ∀ l ∈ c.bound id, l.eff.isFstat = false := by
  intro l hl
  simp only [Core.bound, List.mem_filter] at hl
  obtain ⟨-, he⟩ := hl
  split at he <;> simp_all [Eff.isFstat]

/-- Landings dropped for an iterative result leave every move to FSTAT on its way. -/
theorem any_isFstat_outrun {o : IterOp} (c : Core) (n : Nat) (ho : ∀ l ∈ o.older, l.eff.isFstat = false) :
    (c.outrun o).pipe.any (fun l => l.eff.isFstat && decide (l.due ≤ n)) =
      c.pipe.any (fun l => l.eff.isFstat && decide (l.due ≤ n)) := by
  simp only [Core.outrun]
  split
  · rw [← List.diff_eq_foldl, Bool.eq_iff_iff]
    simp only [List.any_eq_true, Bool.and_eq_true]
    constructor
    · rintro ⟨l, hl, h⟩
      exact ⟨l, List.diff_subset _ _ hl, h⟩
    · rintro ⟨l, hl, hf, hd⟩
      refine ⟨l, List.mem_diff_of_mem hl fun hm => ?_, hf, hd⟩
      simp [ho l (List.mem_of_mem_filter hm)] at hf
  · rfl

/-- A register lands the bits it keeps (R99). -/
theorem portLand_dstReg {id : Nat} (h : dstReg id = true) (c : Core) (v : Word) :
    c.portLand id v = c.put id (v &&& BitVec.ofNat 64 (portMask id)) := by
  simp only [dstReg, decide_eq_true_eq] at h
  have hmask : portMask id ≠ 0 := by unfold portMask; split_ifs <;> omega
  rw [Core.portLand, if_neg (by omega), if_neg (by simp; omega), if_neg (by simp; omega), if_neg hmask]

/-- All that a scoreboarded result does as it lands in its DST (R109, R115). -/
theorem landDst_eq (dst : Nat) (v : Word) (c : Core) : ∃ l,
    c.landDst dst v =
      { (if dstReg dst then c.put dst (v &&& BitVec.ofNat 64 (portMask dst)) else c) with landed := l } := by
  by_cases hd : dstReg dst = true
  · simp only [Core.landDst, hd, if_true, portLand_dstReg hd]
    split <;> exact ⟨_, rfl⟩
  · simp only [Core.landDst, hd, if_false, Bool.false_eq_true]
    split <;> exact ⟨_, rfl⟩

/-- A scoreboarded result landing in its DST leaves the effects on their way and every port that DST cannot name. -/
theorem landDst_keeps (dst : Nat) (v : Word) (c : Core) :
    (c.landDst dst v).pipe = c.pipe ∧ (c.landDst dst v).landAt = c.landAt ∧
      ∀ id, dstReg id = false → (c.landDst dst v).port id = c.port id := by
  obtain ⟨l, hl⟩ := landDst_eq dst v c
  rw [hl]
  split
  · refine ⟨rfl, rfl, fun id hi => port_put_ne (c := c) _ ?_⟩
    rintro rfl
    simp_all
  · exact ⟨rfl, rfl, fun _ _ => rfl⟩

theorem outrun_keeps (o : IterOp) (c : Core) :
    (c.outrun o).landAt = c.landAt ∧ ∀ id, (c.outrun o).port id = c.port id := by
  simp only [Core.outrun]
  split <;> exact ⟨rfl, fun _ => rfl⟩

/-- Flags of an iterative result and a move to FSTAT of one cycle: the move lands, and the flags after it (R156). -/
def MeetsFstatMove (c : Core) (due : Nat) : Prop :=
  c.landAt = due ∧ c.pipe.any (fun l => l.eff.isFstat && decide (l.due ≤ c.issued)) = true

theorem orFlags_alone {c : Core} {f due : Nat} (h : ¬MeetsFstatMove c due) :
    (c.orFlags f due).port 0xE1 = c.port 0xE1 ||| BitVec.ofNat 64 f := by
  simp only [MeetsFstatMove, ← beq_iff_eq (a := c.landAt), ← Bool.and_eq_true] at h
  simp only [Core.orFlags, if_neg h]
  split
  · simp_all
  · exact port_put_same ..

theorem orFlags_meeting {c : Core} {f due : Nat} (h : MeetsFstatMove c due) :
    (c.orFlags f due).port 0xE1 = c.port 0xE1 ∧ (f ≠ 0 → ⟨c.issued, c.issued, .flags f⟩ ∈ (c.orFlags f due).pipe) := by
  simp only [MeetsFstatMove, ← beq_iff_eq (a := c.landAt), ← Bool.and_eq_true] at h
  simp only [Core.orFlags, if_pos h]
  split
  · exact ⟨rfl, fun hf => absurd ‹_› hf⟩
  · exact ⟨rfl, fun _ => by simp [Core.send]⟩

theorem pipe_spend (n : Nat) (c : Core) : (c.spend n).pipe = c.pipe := (sameWork_spend c n).1

/-- Where the flags of an FPU operation go as it lands, for one that outruns no move to FSTAT (R156). -/
theorem iterLand_fstat {o : IterOp} (c : Core) (ho : ∀ l ∈ o.older, l.eff.isFstat = false) :
    (¬MeetsFstatMove c o.due → (c.iterLand 0x340 o).port 0xE1 = c.port 0xE1 ||| BitVec.ofNat 64 o.flags) ∧
    (MeetsFstatMove c o.due → (c.iterLand 0x340 o).port 0xE1 = c.port 0xE1 ∧
      (o.flags ≠ 0 → ⟨c.issued, c.issued, .flags o.flags⟩ ∈ (c.iterLand 0x340 o).pipe)) := by
  obtain ⟨hpipe, hat, hport⟩ := landDst_keeps o.dst o.v ((c.outrun o).put 0x341 o.v)
  obtain ⟨hat', hport'⟩ := outrun_keeps o c
  have hE1 : (((c.outrun o).put 0x341 o.v).landDst o.dst o.v).port 0xE1 = c.port 0xE1 := by
    rw [hport _ (by decide), port_put_ne _ (by decide), hport']
  have hissued : (((c.outrun o).put 0x341 o.v).landDst o.dst o.v).issued = c.issued := by
    rw [Core.issued, Core.num, hport _ (by decide), port_put_ne _ (by decide), hport']
    rfl
  have hmeets : MeetsFstatMove (((c.outrun o).put 0x341 o.v).landDst o.dst o.v) o.due ↔ MeetsFstatMove c o.due := by
    rw [MeetsFstatMove, MeetsFstatMove, hat, hissued, hpipe, pipe_put, any_isFstat_outrun c _ ho, ← hat']
    rfl
  have hspend : ∀ (n : Nat) (c : Core), (c.spend n).port 0xE1 = c.port 0xE1 := fun n c => samePorts_spend c n 0xE1 (by decide)
  rw [Core.iterLand, hspend, pipe_spend, ← hmeets, ← hE1, ← hissued]
  exact ⟨orFlags_alone, orFlags_meeting⟩

/-- The pair as the landing of the iterative result `o` meets it: with what landed in an earlier cycle (R113). -/
def metByLanding (p : Nat) (o : IterOp) (d : Dev) : Core := core (if (core d p).landAt < o.due then settle p d else d) p

theorem core_doFpuIterLand {p : Nat} {o : IterOp} {d : Dev} (h : (core d p).fpi = some o) :
    core (doFpuIterLand p d) p = { (metByLanding p o d).iterLand 0x340 o with fpi := none } := by
  simp only [doFpuIterLand, h, iterLand, core_onCore_same, metByLanding]

/-- What O3 says of FSTAT holds of every operation that a trigger starts (R156). -/
theorem fpuIterLand_fstat {s : State} {p : Pair} {o : IterOp} (hon : awake s.dev = true)
    (hfpi : (core s.dev p).fpi = some o) (ho : ∀ l ∈ o.older, l.eff.isFstat = false) :
    Ends (.fpuIterLand p) s (fun t =>
      (¬MeetsFstatMove (metByLanding p o s.dev) o.due →
        (core t.dev p).port 0xE1 = (metByLanding p o s.dev).port 0xE1 ||| BitVec.ofNat 64 o.flags) ∧
      (MeetsFstatMove (metByLanding p o s.dev) o.due →
        (core t.dev p).port 0xE1 = (metByLanding p o s.dev).port 0xE1 ∧
        (o.flags ≠ 0 → ⟨(metByLanding p o s.dev).issued, (metByLanding p o s.dev).issued, .flags o.flags⟩ ∈ (core t.dev p).pipe))) := by
  refine ⟨_, onDev_awake hon (doFpuIterLand p), ?_⟩
  simp only [core_doFpuIterLand hfpi]
  exact iterLand_fstat _ ho

end Sys2Proof.Machine

/-! SUPPORT. What an operation of an LSU puts on its way, whatever errors its load corrects: the access itself, which
writes no A register, and the update of An (R166 to R168). -/

namespace Sys2Proof.Machine

open Sys2Proof.Safety

/-! ### The issue of a trigger that corrects errors -/

/-- The device a trigger acts on, with `n` errors that its bundle corrects counted (R164). -/
def correctedDev (p n : Nat) (d : Dev) : Dev := setCore p (metCore p d) (eccCorrected p n (met p d))

@[simp] theorem core_correctedDev (p n : Nat) (d : Dev) : core (correctedDev p n d) p = metCore p d := by
  simp [correctedDev]

theorem core_eccCorrected (p n : Nat) (d : Dev) (q : Nat) : core (eccCorrected p n d) q = core d q := by
  simp only [eccCorrected, doIf]
  split
  · exact core_wr ..
  · rfl

/-- What the issue of one trigger does to its pair after the unit's operation, whatever errors its load corrects. -/
theorem issueOne_correcting {p port : Nat} {v : Word} {sat : Bool} {d : Dev} (hr : running d p = true)
    (hu : unheld (core d p) = true) (ht : portKind port = .trigger) (hc : cuControl port = false)
    (hf : (lsuFault (metCore p d) (oneMove port v sat)).isNone = true)
    (hs : stallsSb (met p d) (metCore p d) (oneMove port v sat) = false) :
    ∃ g, issueOne p port v sat d =
        settleHolds p (onCore p g (doIf (spindleMeets (met p d) p (oneMove port v sat)) freshNext
          (trigUnit p port v sat (correctedDev p (lsuCorrects (metCore p d) (oneMove port v sat)) d)))) ∧
      ∀ c, SameWork (g c) c := by
  have h5 : port ≠ 0x3C5 := by rintro rfl; simp [cuControl, cuKind] at hc
  have hm : settle p (onCore p (fun c => c.syncDue c.issued) (atIssue p d)) = met p d := rfl
  have hcore : core (met p d) p = metCore p d := by simp only [metCore]
  have hfind : (oneMove port v sat).find? (fun m => m.dst == 0x3C5) = none := by simp [oneMove, h5]
  have hctl : (oneMove port v sat).find? (fun m => cuControl m.dst) = none := by simp [oneMove, hc]
  have hdo : ∀ d next, (oneMove port v sat).foldl (doMove p next (oneMove port v sat)) d = trigUnit p port v sat d := by
    simp [oneMove, doMove, ht, hc]
  have hop : ∀ n, onCore p (operandMoves (oneMove port v sat)) (eccCorrected p n (met p d)) = correctedDev p n d := by
    simp only [onCore, correctedDev, operandMoves_one _ ht, core_eccCorrected, hcore, implies_true]
  simp only [issueOne, issueWith, hr, hu, Bool.not_true, if_true, Bool.false_eq_true, if_false, issueMoves, issueMoves.run,
    hm, hcore, hfind, hs, Option.isNone_iff_eq_none.mp hf, winners_one ht, hop, hdo, hctl, (by decide : ¬ (0 : Nat) = 2)]
  refine ⟨_, rfl, fun c => ?_⟩
  have h : ∀ n k, SameWork { ((cuEffect (metCore p d).pc none c).spend n).count 0xEF 1 with landed := [], landAt := k } c :=
    fun n _ => .trans ⟨rfl, rfl, rfl, rfl, rfl, rfl, rfl, rfl, rfl, rfl, rfl, rfl, rfl⟩
      ((sameWork_count ..).trans ((sameWork_spend ..).trans (sameWork_fall ..)))
  split
  · exact h _ _
  · exact (sameWork_count ..).trans (h _ _)

/-- After the issue of one trigger, on its way is what the unit left there. -/
theorem pipe_issueOne {p port : Nat} {v : Word} {sat : Bool} {d : Dev} (hr : running d p = true)
    (hu : unheld (core d p) = true) (ht : portKind port = .trigger) (hc : cuControl port = false)
    (hf : (lsuFault (metCore p d) (oneMove port v sat)).isNone = true)
    (hs : stallsSb (met p d) (metCore p d) (oneMove port v sat) = false) :
    let x := trigUnit p port v sat (correctedDev p (lsuCorrects (metCore p d) (oneMove port v sat)) d)
    (core x p).waiting = none → (core (issueOne p port v sat d) p).pipe = (core x p).pipe := by
  intro x hw
  obtain ⟨g, he, hg⟩ := issueOne_correcting hr hu ht hc hf hs
  obtain ⟨-, -, hx⟩ := doIf_freshNext_keeps (spindleMeets (met p d) p (oneMove port v sat)) x
  obtain ⟨b, hb⟩ := core_settleHolds
    (show (core (onCore p g (doIf (spindleMeets (met p d) p (oneMove port v sat)) freshNext x)) p).waiting = none by
      rw [core_onCore_same, (hg _).waiting, hx, hw])
  obtain ⟨hpipe, -⟩ := hg (core x p)
  rw [he, hb]
  simpa only [core_onCore_same, hx] using hpipe

/-! ### The access of an LSU -/

/-- An effect that writes no A register. -/
def sparesA : Eff → Prop
  | .port id _ => id < 0x80 ∨ 0xA0 ≤ id
  | _ => True

theorem sparesA_ne {e : Eff} (h : sparesA e) {n : Nat} (hn : n < 32) (w : Word) : e ≠ .port (0x80 + n) w := by
  rintro rfl
  simp only [sparesA] at h
  omega

/-- `c'` is the pair `c` with more on its way, none of which writes an A register. -/
def AddsSparingA (c c' : Core) : Prop := ∃ l : List Landing, c' = { c with pipe := c.pipe ++ l } ∧ ∀ x ∈ l, sparesA x.eff

theorem AddsSparingA.refl (c : Core) : AddsSparingA c c := ⟨[], by simp, by simp⟩

theorem AddsSparingA.send {c c' : Core} (h : AddsSparingA c c') (k : Nat) {e : Eff} (he : sparesA e) :
    AddsSparingA c (c'.send k e) := by
  obtain ⟨l, rfl, hl⟩ := h
  refine ⟨l ++ [⟨c.issued, c.issued + k, e⟩], by simp [Core.send, Core.issued, Core.num, Core.port], ?_⟩
  simpa [or_imp, forall_and] using ⟨hl, he⟩

theorem AddsSparingA.sendRegs {c c' : Core} (h : AddsSparingA c c') {r : Nat} (k : Nat) {l : List Word}
    (hr : r + l.length ≤ 0x80) : AddsSparingA c (c'.sendRegs r k l) :=
  List.foldlRecOn (List.range l.length) _ h fun _ hb i hi =>
    hb.send k (.inl (by have := List.mem_range.mp hi; omega))

theorem length_words8 (l : List Byte) (n : Nat) : (words8 l n).length = n := by simp [words8]

/-- A load writes RES of its LSU and G registers (R166, R169). -/
theorem lsuLoad_addsSparingA (u o : Nat) (v : Word) (data : List Byte) (c : Core) :
    AddsSparingA c (lsuLoad u o v data c) := by
  have hres : ∀ w, AddsSparingA c (c.send 4 (.port (0x200 + 64 * u + 1) w)) := fun w =>
    (AddsSparingA.refl c).send 4 (.inr (by omega))
  have hquad : bits v.toNat 23 19 < 32 := Nat.mod_lt _ (by decide)
  simp only [lsuLoad, decide_eq_true_eq]
  split
  · exact (AddsSparingA.refl c).sendRegs 4 (by rw [length_words8]; omega)
  · split
    · exact (hres _).sendRegs 4 (by rw [length_words8]; omega)
    · exact hres _
  · split
    · exact (hres _).sendRegs 4 (by rw [length_words8]; omega)
    · exact hres _
  · split
    · exact (hres _).send 4 (.inl ‹_›)
    · exact hres _

/-- The effect by which an LSU operation of this bundle updates An: none where its mode leaves An (R167, R168). -/
def lsuUpdates (c : Core) (o : Nat) (v : Word) : List Landing :=
  (lsuAddr c o v).2.toList.map fun r => ⟨c.issued, c.issued + 1, .port (0x80 + r.1) (BitVec.ofNat 64 r.2)⟩

/-- All that an LSU operation does to its pair: its access, which writes no A register, then the update of An. -/
theorem core_lsuOp (p u o : Nat) (v : Word) (d : Dev) : ∃ l : List Landing, (∀ x ∈ l, sparesA x.eff) ∧
    core (lsuOp p u o v d) p = { core d p with pipe := (core d p).pipe ++ l ++ lsuUpdates (core d p) o v } := by
  simp only [lsuOp, core_setCore_same]
  generalize hc' : (if lsuStores o = true then _ else _ : Core) = c'
  have hadds : AddsSparingA (core d p) c' := by
    subst hc'
    split
    · exact (AddsSparingA.refl _).send 2 trivial
    · exact lsuLoad_addsSparingA ..
  obtain ⟨l, rfl, hl⟩ := hadds
  refine ⟨l, hl, ?_⟩
  rcases hr : (lsuAddr (core d p) o v).2 with _ | ⟨n, a⟩
  · simp [lsuUpdates, hr]
  · simp [lsuUpdates, hr, Core.send, Core.issued, Core.num, Core.port]

/-! ### The commands of an LSU -/

/-- An offset at which an LSU starts an operation (R166). -/
def lsuTrigger (o : Nat) : Prop := (0x10 ≤ o ∧ o ≤ 0x19) ∨ (0x20 ≤ o ∧ o ≤ 0x26)

theorem lsuTrigger.lt {o : Nat} (h : lsuTrigger o) : o < 64 := by
  simp only [lsuTrigger] at h
  omega

theorem lsuPort_trigger (u : Fin 2) {o : Nat} (ho : lsuTrigger o) :
    portKind (lsuPort u o) = .trigger ∧ cuControl (lsuPort u o) = false := by
  have h : ∀ (u : Fin 2) (o : Fin 0x27), (0x10 ≤ o.val ∧ o.val ≤ 0x19) ∨ 0x20 ≤ o.val →
      portKind (lsuPort u o) = .trigger ∧ cuControl (lsuPort u o) = false := by decide
  simp only [lsuTrigger] at ho
  exact h u ⟨o, by omega⟩ (by simp; omega)

theorem trigUnit_lsu (p : Nat) (u : Fin 2) {o : Nat} (ho : o < 64) (v : Word) (sat : Bool) (d : Dev) :
    trigUnit p (lsuPort u o) v sat d = lsuOp p u o v d := by
  have hdiv : (lsuPort u o - 0x200) / 64 = u.val := by simp only [lsuPort]; omega
  have hmod : (lsuPort u o - 0x200) % 64 = o := by simp only [lsuPort]; omega
  rw [trigUnit, hdiv, hmod, if_neg (by simp only [lsuPort]; omega), if_pos (by simp only [lsuPort]; omega)]

/-- The command of a port of the LSUs issues one of their operations. -/
theorem exec_of_opOf {i : Instr} {p : Pair} {port : Nat} {v : Word} {sat : Bool} (h : opOf i = some (p, port, v, sat))
    (hlo : 0x200 ≤ port) (hhi : port < 0x280) :
    ∃ (u : Fin 2) (o : Nat), (∀ s, exec i s = opCmd p (lsuPort u o) v false s) ∧ lsuTrigger o ∧ port = lsuPort u o := by
  cases i with
  | lsuLd8u _ u _ | lsuLd8s _ u _ | lsuLd16u _ u _ | lsuLd16s _ u _ | lsuLd32u _ u _ | lsuLd32s _ u _ | lsuLd64 _ u _
  | lsuLd128 _ u _ | lsuLd256 _ u _ | ldqa _ u _ | lsuSt8 _ u _ | lsuSt16 _ u _ | lsuSt32 _ u _ | lsuSt64 _ u _
  | lsuSt128 _ u _ | lsuSt256 _ u _ | stqa _ u _ =>
    cases h
    exact ⟨u, _, fun _ => rfl, by simp [lsuTrigger], by simp only [lsuPort]; omega⟩
  | fadd _ dbl | fsub _ dbl | fmul _ dbl | fma _ dbl | fms _ dbl | fnma _ dbl | fmin _ dbl | fmax _ dbl | fcmpeq _ dbl
  | fcmplt _ dbl | fcmple _ dbl | fcmpun _ dbl | fdiv _ dbl | fsqrt _ dbl =>
    cases h
    simp only [fpPort] at hhi
    omega
  | _ => cases h <;> omega

/-- The command of an LSU operation issues that operation. -/
theorem exec_of_lsuOf {i : Instr} {p : Pair} {u o : Nat} {v : Word} (h : lsuOf i = some (p, u, o, v)) :
    ∃ w : Fin 2, u = w ∧ lsuTrigger o ∧ ∀ s, exec i s = opCmd p (lsuPort w o) v false s := by
  rcases hop : opOf i with _ | ⟨q, port, b, sat⟩
  · simp [lsuOf, hop] at h
  · simp only [lsuOf, hop, Option.ite_none_right_eq_some, Option.some.injEq, Prod.mk.injEq] at h
    obtain ⟨⟨hlo, hhi⟩, rfl, hu, ho, rfl⟩ := h
    obtain ⟨w, k, he, hk, rfl⟩ := exec_of_opOf hop hlo hhi
    have hk64 := hk.lt
    simp only [lsuPort] at hu ho
    obtain rfl : k = o := by omega
    exact ⟨w, by omega, hk, he⟩

/-- A command of an LSU ends with its access and its update of An on their way, and the access writes no A register. -/
theorem lsu_ends {i : Instr} {s : State} {p : Pair} {u o : Nat} {v : Word} {ecc : Nat} (hi : lsuOf i = some (p, u, o, v))
    (h : issuesEcc s p (0x200 + 64 * u + o) v false ecc = true) :
    Ends i s (fun t => ∃ l : List Landing, (∀ x ∈ l, sparesA x.eff) ∧
      (core t.dev p).pipe = (metCore p s.dev).pipe ++ l ++ lsuUpdates (metCore p s.dev) o v) := by
  obtain ⟨w, rfl, ho, he⟩ := exec_of_lsuOf hi
  obtain ⟨ht, hc⟩ := lsuPort_trigger w ho
  simp only [issuesEcc, canIssue, Bool.and_eq_true, Bool.not_eq_true', beq_iff_eq] at h
  obtain ⟨⟨⟨⟨⟨hon, hr⟩, hn⟩, hf⟩, hs⟩, -⟩ := h
  have hwait : (metCore p s.dev).waiting = none := by
    simp only [unheld, Bool.and_eq_true] at hn
    exact (waiting_met p s.dev).trans (Option.isNone_iff_eq_none.mp hn.1.1)
  obtain ⟨l, hl, hcore⟩ := core_lsuOp p w o v
    (correctedDev p (lsuCorrects (metCore p s.dev) (oneMove (lsuPort w o) v false)) s.dev)
  rw [core_correctedDev, ← trigUnit_lsu p w ho.lt v false] at hcore
  refine ⟨_, (he s).trans (onDev_awake hon _), l, hl, ?_⟩
  exact (pipe_issueOne hr hn ht hc hf hs (by rw [hcore, hwait])).trans (by rw [hcore])

/-! ### The address update -/

theorem toSigned_eq_toInt (w : Word) : toSigned 40 w.toNat = (w.setWidth 40).toInt := by
  simp only [toSigned, BitVec.toInt_eq_toNat_cond, BitVec.toNat_setWidth]
  split <;> split <;> omega

/-- The power of two of R168 is the smallest that is not less than `l`. -/
theorem pow2Above_eq {l k : Nat} (hle : l ≤ 2 ^ k) (hlt : k = 0 ∨ 2 ^ (k - 1) < l) : pow2Above l = 2 ^ k := by
  simp only [pow2Above]
  split
  case isTrue h =>
    rcases hlt with rfl | hlt
    · rfl
    · have := Nat.two_pow_pos (k - 1)
      omega
  case isFalse h =>
    obtain rfl | hk := Nat.eq_zero_or_pos k
    · omega
    · have hlog : Nat.log2 (l - 1) = k - 1 :=
        (Nat.log2_eq_iff (by omega)).mpr ⟨by omega, by rw [Nat.sub_add_cancel hk]; omega⟩
      rw [hlog, Nat.sub_add_cancel hk]

/-- An update from within the buffer and by no more than its length stays inside it (R168). -/
theorem wrapAddr_mem {an l : Nat} {mm : Int} (hin : an < an / pow2Above l * pow2Above l + l) (hm : mm.natAbs ≤ l)
    (htop : an / pow2Above l * pow2Above l + l ≤ 2 ^ 40) :
    an / pow2Above l * pow2Above l ≤ wrapAddr an mm l ∧ wrapAddr an mm l < an / pow2Above l * pow2Above l + l := by
  have hbase : an / pow2Above l * pow2Above l ≤ an := Nat.div_mul_le_self ..
  simp only [wrapAddr, ofSigned]
  generalize an / pow2Above l * pow2Above l = base at *
  split_ifs <;> omega

/-- The update an addressed operation makes, in the words of R167. -/
theorem lsuUpdates_eq {c : Core} {o : Nat} {v : Word} (hq : o ≠ 0x19) (hq' : o ≠ 0x26) :
    lsuUpdates c o v = (addrWord (v.toNat / 1024 % 4) (c.num (0x80 + v.toNat % 32)) (c.num (0xA0 + v.toNat / 32 % 32))
      (c.num (0xC0 + v.toNat % 32 % 16))).2.toList.map
        fun a => ⟨c.issued, c.issued + 1, .port (0x80 + v.toNat % 32) (BitVec.ofNat 64 a)⟩ := by
  simp only [lsuUpdates, lsuAddr, hq, hq', or_self, if_false, Option.toList_map, List.map_map]
  simp [bits, Function.comp_def]

/-- A command of an LSU sends the updated An that `addrWord` answers on its way to the next bundle. -/
theorem lsu_sends_update {i : Instr} {s : State} {p : Pair} {u o a : Nat} {v : Word} {ecc : Nat}
    (hi : lsuOf i = some (p, u, o, v)) (h : issuesEcc s p (0x200 + 64 * u + o) v false ecc = true) (hq : o ≠ 0x19)
    (hq' : o ≠ 0x26) (ha : (addrWord (v.toNat / 1024 % 4) (opnd s p (0x80 + v.toNat % 32)).toNat
      (opnd s p (0xA0 + v.toNat / 32 % 32)).toNat (opnd s p (0xC0 + v.toNat % 32 % 16)).toNat).2 = some a) :
    Ends i s (fun t => Sent s t p 1 (.port (0x80 + v.toNat % 32) (BitVec.ofNat 64 a))) := by
  refine ends_mono (fun t ⟨l, _, hp⟩ => ?_) (lsu_ends hi h)
  simp only [opnd] at ha
  simp only [Sent, hp, lsuUpdates_eq hq hq', Core.num, ha]
  simp

/-- Settles O10: the update is what `addrWord` answers, mode by mode (`lsu_sends_update`), and it stays inside the buffer by
`wrapAddr_mem`. -/
theorem lsuAddressUpdate : Obligations.LsuAddressUpdate := by
  unfold Obligations.LsuAddressUpdate
  refine ⟨fun i s p u o v ecc hi hq hq' h => ⟨fun hlinear => ?_, fun hmode hl k hle hlt => ?_, fun hmode => ?_⟩,
    fun an l mm _ => wrapAddr_mem⟩
  · refine lsu_sends_update hi h hq hq' ?_
    rcases hlinear with hmode | ⟨hmode, hl⟩
    · rw [hmode, ← toSigned_eq_toInt]
      rfl
    · rw [hmode, ← toSigned_eq_toInt, addrWord, if_pos hl]
      rfl
  · refine lsu_sends_update hi h hq hq' ?_
    rw [hmode, ← toSigned_eq_toInt, addrWord, if_neg (by omega), wrapAddr, pow2Above_eq hle hlt]
    push_cast
    rfl
  · have hnone : lsuUpdates (metCore p s.dev) o v = [] := by
      rw [lsuUpdates_eq hq hq']
      rcases hmode with hmode | hmode <;> rw [hmode] <;> rfl
    refine ends_mono (fun t ⟨l, hl, hp⟩ x hx => ?_) (lsu_ends hi h)
    rw [hp, hnone, List.append_nil, List.mem_append] at hx
    exact hx.imp_right fun hx w => sparesA_ne (hl x hx) (Nat.mod_lt _ (by decide)) w

end Sys2Proof.Machine
